-- ==== Sys2Proof/Word.lean ====
section
/-!
DEFINITION. The two word types of CORE (00_scope.md rule R301): general registers and bus data are 8 bits,
SP, PC and addresses are 16 bits.
-/

namespace Sys2Proof

/-- A byte: bit 0 is the least significant bit (rule R302). -/
abbrev Byte := BitVec 8

/-- A 16-bit register, immediate or address. -/
abbrev Word := BitVec 16

end Sys2Proof
end

