-- ==== Sys2Proof/Syntax.lean ====
section
/-!
DEFINITION. The syntax of the CORE instruction set: the names of operands, `Instr` with one
constructor per row of spec/opcode_table.json, the operand view `Form` of each (the "form" column of
30_encoding.md rules R76 and R77), and `Code`, an instruction together with its immediate bytes.

A constructor's name spells the row's mnemonic: `ldAB` is LD A,B; `M` marks a memory operand, so
`ldMHlB` is LD (HL),B, `ldAMHlInc` is LD A,(HL+), `ldMA16Sp` is LD (a16),SP and `bit3MHl` is BIT 3,(HL).
-/

namespace Sys2Proof

/-- Operand kind R8 (rule R98): the seven 8-bit registers an instruction can name. F has no code (R72). -/
inductive Reg8 where
  | a | b | c | d | e | h | l
deriving DecidableEq, Repr

/-- Operand kind R16 (rule R104): a register pair or 16-bit register. -/
inductive Reg16 where
  | bc | de | hl | sp | af
deriving DecidableEq, Repr

/-- Operand kind IND (rule R101): one byte of memory at an address taken from registers. -/
inductive Ind where
  | bc | de | hl | hlInc | hlDec | highC
deriving DecidableEq, Repr

/-- The four conditions of JR cc (rules R74, R177). -/
inductive Cond where
  | nz | z | nc | c
deriving DecidableEq, Repr

/-- One constructor per row of spec/opcode_table.json: the 143 opcodes of the first table (rule R76),
then the 72 of the second (rule R77). -/
inductive Instr where
  | ldBcD16 | ldMBcA | incBc | incB | decB | ldBD8 | ldMA16Sp | ldAMBc
  | decBc | incC | decC | ldCD8 | ldDeD16 | ldMDeA | incDe | incD
  | decD | ldDD8 | jr | ldAMDe | decDe | incE | decE | ldED8
  | jrNz | ldHlD16 | ldMHlIncA | incHl | incH | decH | ldHD8 | jrZ
  | ldAMHlInc | decHl | incL | decL | ldLD8 | jrNc | ldSpD16 | ldMHlDecA
  | incSp | incMHl | decMHl | ldMHlD8 | jrC | ldAMHlDec | decSp | incA
  | decA | ldAD8 | ldBB | ldBC | ldBD | ldBE | ldBH | ldBL
  | ldBMHl | ldBA | ldCB | ldCC | ldCD | ldCE | ldCH | ldCL
  | ldCMHl | ldCA | ldDB | ldDC | ldDD | ldDE | ldDH | ldDL
  | ldDMHl | ldDA | ldEB | ldEC | ldED | ldEE | ldEH | ldEL
  | ldEMHl | ldEA | ldHB | ldHC | ldHD | ldHE | ldHH | ldHL
  | ldHMHl | ldHA | ldLB | ldLC | ldLD | ldLE | ldLH | ldLL
  | ldLMHl | ldLA | ldMHlB | ldMHlC | ldMHlD | ldMHlE | ldMHlH | ldMHlL
  | ldMHlA | ldAB | ldAC | ldAD | ldAE | ldAH | ldAL | ldAMHl
  | ldAA | cpB | cpC | cpD | cpE | cpH | cpL | cpMHl
  | cpA | popBc | pushBc | ret | prefixCb | call | popDe | pushDe
  | reti | ldhMA8A | popHl | ldMCA | pushHl | ldMA16A | ldhAMA8 | popAf
  | ldAMC | di | pushAf | ldSpHl | ldAMA16 | ei | cpD8
  | rlB | rlC | rlD | rlE | rlH | rlL | rlMHl | rlA
  | bit0B | bit0C | bit0D | bit0E | bit0H | bit0L | bit0MHl | bit0A
  | bit1B | bit1C | bit1D | bit1E | bit1H | bit1L | bit1MHl | bit1A
  | bit2B | bit2C | bit2D | bit2E | bit2H | bit2L | bit2MHl | bit2A
  | bit3B | bit3C | bit3D | bit3E | bit3H | bit3L | bit3MHl | bit3A
  | bit4B | bit4C | bit4D | bit4E | bit4H | bit4L | bit4MHl | bit4A
  | bit5B | bit5C | bit5D | bit5E | bit5H | bit5L | bit5MHl | bit5A
  | bit6B | bit6C | bit6D | bit6E | bit6H | bit6L | bit6MHl | bit6A
  | bit7B | bit7C | bit7D | bit7E | bit7H | bit7L | bit7MHl | bit7A
deriving DecidableEq, Repr

/-- The forms of rules R76 and R77 with the operands their opcode selects. -/
inductive Form where
  | ldRR (dst src : Reg8) | ldRMHl (dst : Reg8) | ldMHlR (src : Reg8) | ldRD8 (dst : Reg8) | ldMHlD8
  | ldAMBc | ldAMDe | ldMBcA | ldMDeA | ldAMA16 | ldhMA8A | ldhAMA8 | ldMCA | ldAMC
  | ldMHlIncA | ldMHlDecA | ldAMHlInc | ldAMHlDec | ldMA16Sp | ldMA16A | ldRrD16 (p : Reg16) | ldSpHl
  | incR (r : Reg8) | incMHl | decR (r : Reg8) | decMHl | incRr (p : Reg16) | decRr (p : Reg16)
  | cpR (r : Reg8) | cpMHl | cpD8 | jr | jrCc (cc : Cond) | pushRr (p : Reg16) | popRr (p : Reg16)
  | call | ret | reti | ei | di | prefixCb
  | rlR (r : Reg8) | rlMHl | bitR (b : Fin 8) (r : Reg8) | bitMHl (b : Fin 8)
deriving DecidableEq, Repr

/-- The operand view of an instruction. -/
def Instr.form : Instr → Form
  | .ldBcD16 => .ldRrD16 .bc
  | .ldMBcA => .ldMBcA
  | .incBc => .incRr .bc
  | .incB => .incR .b
  | .decB => .decR .b
  | .ldBD8 => .ldRD8 .b
  | .ldMA16Sp => .ldMA16Sp
  | .ldAMBc => .ldAMBc
  | .decBc => .decRr .bc
  | .incC => .incR .c
  | .decC => .decR .c
  | .ldCD8 => .ldRD8 .c
  | .ldDeD16 => .ldRrD16 .de
  | .ldMDeA => .ldMDeA
  | .incDe => .incRr .de
  | .incD => .incR .d
  | .decD => .decR .d
  | .ldDD8 => .ldRD8 .d
  | .jr => .jr
  | .ldAMDe => .ldAMDe
  | .decDe => .decRr .de
  | .incE => .incR .e
  | .decE => .decR .e
  | .ldED8 => .ldRD8 .e
  | .jrNz => .jrCc .nz
  | .ldHlD16 => .ldRrD16 .hl
  | .ldMHlIncA => .ldMHlIncA
  | .incHl => .incRr .hl
  | .incH => .incR .h
  | .decH => .decR .h
  | .ldHD8 => .ldRD8 .h
  | .jrZ => .jrCc .z
  | .ldAMHlInc => .ldAMHlInc
  | .decHl => .decRr .hl
  | .incL => .incR .l
  | .decL => .decR .l
  | .ldLD8 => .ldRD8 .l
  | .jrNc => .jrCc .nc
  | .ldSpD16 => .ldRrD16 .sp
  | .ldMHlDecA => .ldMHlDecA
  | .incSp => .incRr .sp
  | .incMHl => .incMHl
  | .decMHl => .decMHl
  | .ldMHlD8 => .ldMHlD8
  | .jrC => .jrCc .c
  | .ldAMHlDec => .ldAMHlDec
  | .decSp => .decRr .sp
  | .incA => .incR .a
  | .decA => .decR .a
  | .ldAD8 => .ldRD8 .a
  | .ldBB => .ldRR .b .b
  | .ldBC => .ldRR .b .c
  | .ldBD => .ldRR .b .d
  | .ldBE => .ldRR .b .e
  | .ldBH => .ldRR .b .h
  | .ldBL => .ldRR .b .l
  | .ldBMHl => .ldRMHl .b
  | .ldBA => .ldRR .b .a
  | .ldCB => .ldRR .c .b
  | .ldCC => .ldRR .c .c
  | .ldCD => .ldRR .c .d
  | .ldCE => .ldRR .c .e
  | .ldCH => .ldRR .c .h
  | .ldCL => .ldRR .c .l
  | .ldCMHl => .ldRMHl .c
  | .ldCA => .ldRR .c .a
  | .ldDB => .ldRR .d .b
  | .ldDC => .ldRR .d .c
  | .ldDD => .ldRR .d .d
  | .ldDE => .ldRR .d .e
  | .ldDH => .ldRR .d .h
  | .ldDL => .ldRR .d .l
  | .ldDMHl => .ldRMHl .d
  | .ldDA => .ldRR .d .a
  | .ldEB => .ldRR .e .b
  | .ldEC => .ldRR .e .c
  | .ldED => .ldRR .e .d
  | .ldEE => .ldRR .e .e
  | .ldEH => .ldRR .e .h
  | .ldEL => .ldRR .e .l
  | .ldEMHl => .ldRMHl .e
  | .ldEA => .ldRR .e .a
  | .ldHB => .ldRR .h .b
  | .ldHC => .ldRR .h .c
  | .ldHD => .ldRR .h .d
  | .ldHE => .ldRR .h .e
  | .ldHH => .ldRR .h .h
  | .ldHL => .ldRR .h .l
  | .ldHMHl => .ldRMHl .h
  | .ldHA => .ldRR .h .a
  | .ldLB => .ldRR .l .b
  | .ldLC => .ldRR .l .c
  | .ldLD => .ldRR .l .d
  | .ldLE => .ldRR .l .e
  | .ldLH => .ldRR .l .h
  | .ldLL => .ldRR .l .l
  | .ldLMHl => .ldRMHl .l
  | .ldLA => .ldRR .l .a
  | .ldMHlB => .ldMHlR .b
  | .ldMHlC => .ldMHlR .c
  | .ldMHlD => .ldMHlR .d
  | .ldMHlE => .ldMHlR .e
  | .ldMHlH => .ldMHlR .h
  | .ldMHlL => .ldMHlR .l
  | .ldMHlA => .ldMHlR .a
  | .ldAB => .ldRR .a .b
  | .ldAC => .ldRR .a .c
  | .ldAD => .ldRR .a .d
  | .ldAE => .ldRR .a .e
  | .ldAH => .ldRR .a .h
  | .ldAL => .ldRR .a .l
  | .ldAMHl => .ldRMHl .a
  | .ldAA => .ldRR .a .a
  | .cpB => .cpR .b
  | .cpC => .cpR .c
  | .cpD => .cpR .d
  | .cpE => .cpR .e
  | .cpH => .cpR .h
  | .cpL => .cpR .l
  | .cpMHl => .cpMHl
  | .cpA => .cpR .a
  | .popBc => .popRr .bc
  | .pushBc => .pushRr .bc
  | .ret => .ret
  | .prefixCb => .prefixCb
  | .call => .call
  | .popDe => .popRr .de
  | .pushDe => .pushRr .de
  | .reti => .reti
  | .ldhMA8A => .ldhMA8A
  | .popHl => .popRr .hl
  | .ldMCA => .ldMCA
  | .pushHl => .pushRr .hl
  | .ldMA16A => .ldMA16A
  | .ldhAMA8 => .ldhAMA8
  | .popAf => .popRr .af
  | .ldAMC => .ldAMC
  | .di => .di
  | .pushAf => .pushRr .af
  | .ldSpHl => .ldSpHl
  | .ldAMA16 => .ldAMA16
  | .ei => .ei
  | .cpD8 => .cpD8
  | .rlB => .rlR .b
  | .rlC => .rlR .c
  | .rlD => .rlR .d
  | .rlE => .rlR .e
  | .rlH => .rlR .h
  | .rlL => .rlR .l
  | .rlMHl => .rlMHl
  | .rlA => .rlR .a
  | .bit0B => .bitR 0 .b
  | .bit0C => .bitR 0 .c
  | .bit0D => .bitR 0 .d
  | .bit0E => .bitR 0 .e
  | .bit0H => .bitR 0 .h
  | .bit0L => .bitR 0 .l
  | .bit0MHl => .bitMHl 0
  | .bit0A => .bitR 0 .a
  | .bit1B => .bitR 1 .b
  | .bit1C => .bitR 1 .c
  | .bit1D => .bitR 1 .d
  | .bit1E => .bitR 1 .e
  | .bit1H => .bitR 1 .h
  | .bit1L => .bitR 1 .l
  | .bit1MHl => .bitMHl 1
  | .bit1A => .bitR 1 .a
  | .bit2B => .bitR 2 .b
  | .bit2C => .bitR 2 .c
  | .bit2D => .bitR 2 .d
  | .bit2E => .bitR 2 .e
  | .bit2H => .bitR 2 .h
  | .bit2L => .bitR 2 .l
  | .bit2MHl => .bitMHl 2
  | .bit2A => .bitR 2 .a
  | .bit3B => .bitR 3 .b
  | .bit3C => .bitR 3 .c
  | .bit3D => .bitR 3 .d
  | .bit3E => .bitR 3 .e
  | .bit3H => .bitR 3 .h
  | .bit3L => .bitR 3 .l
  | .bit3MHl => .bitMHl 3
  | .bit3A => .bitR 3 .a
  | .bit4B => .bitR 4 .b
  | .bit4C => .bitR 4 .c
  | .bit4D => .bitR 4 .d
  | .bit4E => .bitR 4 .e
  | .bit4H => .bitR 4 .h
  | .bit4L => .bitR 4 .l
  | .bit4MHl => .bitMHl 4
  | .bit4A => .bitR 4 .a
  | .bit5B => .bitR 5 .b
  | .bit5C => .bitR 5 .c
  | .bit5D => .bitR 5 .d
  | .bit5E => .bitR 5 .e
  | .bit5H => .bitR 5 .h
  | .bit5L => .bitR 5 .l
  | .bit5MHl => .bitMHl 5
  | .bit5A => .bitR 5 .a
  | .bit6B => .bitR 6 .b
  | .bit6C => .bitR 6 .c
  | .bit6D => .bitR 6 .d
  | .bit6E => .bitR 6 .e
  | .bit6H => .bitR 6 .h
  | .bit6L => .bitR 6 .l
  | .bit6MHl => .bitMHl 6
  | .bit6A => .bitR 6 .a
  | .bit7B => .bitR 7 .b
  | .bit7C => .bitR 7 .c
  | .bit7D => .bitR 7 .d
  | .bit7E => .bitR 7 .e
  | .bit7H => .bitR 7 .h
  | .bit7L => .bitR 7 .l
  | .bit7MHl => .bitMHl 7
  | .bit7A => .bitR 7 .a

/-- The immediate part of an instruction's bytes (rules R70, R75). For PREFIX CB the byte is the second
opcode it reads. -/
inductive Imm where
  | none
  | byte (v : Byte)
  | word (v : Word)
deriving DecidableEq, Repr

/-- The three shapes an immediate part can have. -/
inductive ImmKind where
  | none | byte | word
deriving DecidableEq, Repr

def Imm.kind : Imm → ImmKind
  | .none => .none
  | .byte _ => .byte
  | .word _ => .word

/-- The shape of the immediate part of each form: the format column of rule R76 (F1 none, F2 a byte, F3 a
word); PREFIX CB is followed by the second opcode byte (format FCB, rule R70). -/
def Form.immKind : Form → ImmKind
  | .ldRD8 _ | .ldMHlD8 | .ldhMA8A | .ldhAMA8 | .cpD8 | .jr | .jrCc _ | .prefixCb => .byte
  | .ldAMA16 | .ldMA16Sp | .ldMA16A | .ldRrD16 _ | .call => .word
  | .ldRR _ _ | .ldRMHl _ | .ldMHlR _ | .ldAMBc | .ldAMDe | .ldMBcA | .ldMDeA | .ldMCA | .ldAMC
  | .ldMHlIncA | .ldMHlDecA | .ldAMHlInc | .ldAMHlDec | .ldSpHl | .incR _ | .incMHl | .decR _ | .decMHl
  | .incRr _ | .decRr _ | .cpR _ | .cpMHl | .pushRr _ | .popRr _ | .ret | .reti | .ei | .di
  | .rlR _ | .rlMHl | .bitR _ _ | .bitMHl _ => .none

/-- Is the instruction of the second table, reached through 0xCB (rule R77)? -/
def Form.isCb : Form → Bool
  | .rlR _ | .rlMHl | .bitR _ _ | .bitMHl _ => true
  | .ldRR _ _ | .ldRMHl _ | .ldMHlR _ | .ldRD8 _ | .ldMHlD8 | .ldAMBc | .ldAMDe | .ldMBcA | .ldMDeA
  | .ldAMA16 | .ldhMA8A | .ldhAMA8 | .ldMCA | .ldAMC | .ldMHlIncA | .ldMHlDecA | .ldAMHlInc | .ldAMHlDec
  | .ldMA16Sp | .ldMA16A | .ldRrD16 _ | .ldSpHl | .incR _ | .incMHl | .decR _ | .decMHl | .incRr _
  | .decRr _ | .cpR _ | .cpMHl | .cpD8 | .jr | .jrCc _ | .pushRr _ | .popRr _ | .call | .ret | .reti
  | .ei | .di | .prefixCb => false

/-- An instruction as it stands in memory: the opcode's instruction and its immediate bytes. The machine
never holds a `Code`: it reads immediates byte by byte as its cycles ask for them (rules R79, R99). -/
structure Code where
  instr : Instr
  imm : Imm
deriving DecidableEq, Repr

end Sys2Proof
end

