-- ==== Sys2Proof/WellFormed.lean ====
section
/-!
DEFINITION. Which codes are instructions. Every term of `Instr` is a row of the opcode table, so what can be
ill formed is the immediate part a `Code` carries.
-/

namespace Sys2Proof

/-- The second opcodes that have a handler (rule R77): RL at 0x10 to 0x17, BIT at 0x40 to 0x7F. -/
def secondOpcodeImplemented (op : Byte) : Bool :=
  (0x10#8 ≤ op && op ≤ 0x17#8) || (0x40#8 ≤ op && op ≤ 0x7F#8)

/-- Check 1: the immediate part has the shape the instruction's format gives it (rule R70). -/
def Code.immFits (c : Code) : Bool := c.imm.kind == c.instr.form.immKind

/-- Check 2: the byte after a bare PREFIX CB selects no handler; with a byte of rule R77 the two bytes
are that instruction, not a prefix on its own (rules R82, R108). -/
def Code.prefixBare (c : Code) : Bool :=
  match c.instr, c.imm with
  | .prefixCb, .byte op2 => !secondOpcodeImplemented op2
  | _, _ => true

/-- A code is well formed when both checks pass. -/
def Code.wellFormed (c : Code) : Bool := c.immFits && c.prefixBare

end Sys2Proof
end

