-- ==== Sys2Proof/Decode.lean ====
section
/-!
DEFINITION. Decoding (30_encoding.md) and, after it, encoding. The decoder is the source's "lookup table (array
indexed by opcode, or a two-level table for the prefixed set)" (rule R71): Grid 1 and Grid 2 of rules R80
and R81. The encoder is written from the bit patterns of rules R76 and R77 and the field codes of rules R72
to R74.
-/

namespace Sys2Proof

/-- `w[15:8]` (rule R302). -/
def hiByte (w : Word) : Byte := w.extractLsb' 8 8

/-- `w[7:0]` (rule R302). -/
def loByte (w : Word) : Byte := w.extractLsb' 0 8

/-- `hi:lo`, the first byte the more significant (rule R302). -/
def joinBytes (hi lo : Byte) : Word := hi ++ lo

/-- A row of a grid in which no opcode has a handler (rule R78). -/
def emptyRow : List (Option Instr) := List.replicate 16 none

/-- Grid 1 (rule R80): the first opcode table, row = high nibble, column = low nibble. -/
def grid1 : List (List (Option Instr)) := [
  [none, some .ldBcD16, some .ldMBcA, some .incBc, some .incB, some .decB, some .ldBD8, none,
    some .ldMA16Sp, none, some .ldAMBc, some .decBc, some .incC, some .decC, some .ldCD8, none],
  [none, some .ldDeD16, some .ldMDeA, some .incDe, some .incD, some .decD, some .ldDD8, none, some .jr,
    none, some .ldAMDe, some .decDe, some .incE, some .decE, some .ldED8, none],
  [some .jrNz, some .ldHlD16, some .ldMHlIncA, some .incHl, some .incH, some .decH, some .ldHD8, none,
    some .jrZ, none, some .ldAMHlInc, some .decHl, some .incL, some .decL, some .ldLD8, none],
  [some .jrNc, some .ldSpD16, some .ldMHlDecA, some .incSp, some .incMHl, some .decMHl, some .ldMHlD8,
    none, some .jrC, none, some .ldAMHlDec, some .decSp, some .incA, some .decA, some .ldAD8, none],
  [some .ldBB, some .ldBC, some .ldBD, some .ldBE, some .ldBH, some .ldBL, some .ldBMHl, some .ldBA,
    some .ldCB, some .ldCC, some .ldCD, some .ldCE, some .ldCH, some .ldCL, some .ldCMHl, some .ldCA],
  [some .ldDB, some .ldDC, some .ldDD, some .ldDE, some .ldDH, some .ldDL, some .ldDMHl, some .ldDA,
    some .ldEB, some .ldEC, some .ldED, some .ldEE, some .ldEH, some .ldEL, some .ldEMHl, some .ldEA],
  [some .ldHB, some .ldHC, some .ldHD, some .ldHE, some .ldHH, some .ldHL, some .ldHMHl, some .ldHA,
    some .ldLB, some .ldLC, some .ldLD, some .ldLE, some .ldLH, some .ldLL, some .ldLMHl, some .ldLA],
  [some .ldMHlB, some .ldMHlC, some .ldMHlD, some .ldMHlE, some .ldMHlH, some .ldMHlL, none,
    some .ldMHlA, some .ldAB, some .ldAC, some .ldAD, some .ldAE, some .ldAH, some .ldAL, some .ldAMHl,
    some .ldAA],
  emptyRow,
  emptyRow,
  emptyRow,
  [none, none, none, none, none, none, none, none, some .cpB, some .cpC, some .cpD, some .cpE,
    some .cpH, some .cpL, some .cpMHl, some .cpA],
  [none, some .popBc, none, none, none, some .pushBc, none, none, none, some .ret, none, some .prefixCb,
    none, some .call, none, none],
  [none, some .popDe, none, none, none, some .pushDe, none, none, none, some .reti, none, none, none,
    none, none, none],
  [some .ldhMA8A, some .popHl, some .ldMCA, none, none, some .pushHl, none, none, none, none,
    some .ldMA16A, none, none, none, none, none],
  [some .ldhAMA8, some .popAf, some .ldAMC, some .di, none, some .pushAf, none, none, none,
    some .ldSpHl, some .ldAMA16, some .ei, none, none, some .cpD8, none]]

/-- Grid 2 (rule R81): the second opcode table, reached through 0xCB. -/
def grid2 : List (List (Option Instr)) := [
  emptyRow,
  [some .rlB, some .rlC, some .rlD, some .rlE, some .rlH, some .rlL, some .rlMHl, some .rlA, none, none,
    none, none, none, none, none, none],
  emptyRow,
  emptyRow,
  [some .bit0B, some .bit0C, some .bit0D, some .bit0E, some .bit0H, some .bit0L, some .bit0MHl,
    some .bit0A, some .bit1B, some .bit1C, some .bit1D, some .bit1E, some .bit1H, some .bit1L,
    some .bit1MHl, some .bit1A],
  [some .bit2B, some .bit2C, some .bit2D, some .bit2E, some .bit2H, some .bit2L, some .bit2MHl,
    some .bit2A, some .bit3B, some .bit3C, some .bit3D, some .bit3E, some .bit3H, some .bit3L,
    some .bit3MHl, some .bit3A],
  [some .bit4B, some .bit4C, some .bit4D, some .bit4E, some .bit4H, some .bit4L, some .bit4MHl,
    some .bit4A, some .bit5B, some .bit5C, some .bit5D, some .bit5E, some .bit5H, some .bit5L,
    some .bit5MHl, some .bit5A],
  [some .bit6B, some .bit6C, some .bit6D, some .bit6E, some .bit6H, some .bit6L, some .bit6MHl,
    some .bit6A, some .bit7B, some .bit7C, some .bit7D, some .bit7E, some .bit7H, some .bit7L,
    some .bit7MHl, some .bit7A],
  emptyRow,
  emptyRow,
  emptyRow,
  emptyRow,
  emptyRow,
  emptyRow,
  emptyRow,
  emptyRow]

/-- The engine's decode of `(ctx.cb, ctx.opcode)` (rule R91): the handler the table holds, or none (an
unimplemented opcode, rule R78). -/
def decodeOpcode (cb : Bool) (op : Byte) : Option Instr :=
  match (if cb then grid2 else grid1)[op.toNat / 16]? with
  | none => none
  | some row => (row[op.toNat % 16]?).join

/-- Why a sequence of bytes is no instruction. -/
inductive DecodeError where
  /-- An opcode byte that selects no handler (rule R78). -/
  | unimplemented (cb : Bool) (op : Byte)
  /-- The bytes end before the instruction does. -/
  | truncated
deriving DecidableEq, Repr

/-- Take an immediate part of the given shape off the bytes; a word has its low byte first (rule R75). -/
def takeImm : ImmKind → List Byte → Except DecodeError (Imm × List Byte)
  | .none, bs => .ok (.none, bs)
  | .byte, v :: bs => .ok (.byte v, bs)
  | .word, lo :: hi :: bs => .ok (.word (joinBytes hi lo), bs)
  | .byte, [] => .error .truncated
  | .word, [] => .error .truncated
  | .word, [_] => .error .truncated

/-- The instruction at the head of a byte sequence, with the bytes after it (rules R70, R79). 0xCB is followed
by a second opcode; if that selects a handler the two bytes are that instruction, else they are a PREFIX CB
whose redispatch will find no handler (rules R82, R108; log 14). -/
def decode : List Byte → Except DecodeError (Code × List Byte)
  | [] => .error .truncated
  | op :: bs =>
    match decodeOpcode false op with
    | none => .error (.unimplemented false op)
    | some i =>
      match takeImm i.form.immKind bs with
      | .error e => .error e
      | .ok (imm, rest) =>
        match i, imm with
        | .prefixCb, .byte op2 =>
          match decodeOpcode true op2 with
          | some j => .ok (⟨j, .none⟩, rest)
          | none => .ok (⟨i, imm⟩, rest)
        | _, _ => .ok (⟨i, imm⟩, rest)

/-! ## Encoding -/

/-- Code of an 8-bit register in the `y` or `z` field (rule R72); code 6 is (HL). -/
def Reg8.code : Reg8 → BitVec 3
  | .b => 0 | .c => 1 | .d => 2 | .e => 3 | .h => 4 | .l => 5 | .a => 7

/-- Code 6 of the 8-bit operand field: the byte at HL (rule R72). -/
def codeMHl : BitVec 3 := 6

/-- Code of a pair in the `p` field (rule R73): 3 is SP in LD, INC and DEC and AF in PUSH and POP. -/
def Reg16.code : Reg16 → BitVec 2
  | .bc => 0 | .de => 1 | .hl => 2 | .sp => 3 | .af => 3

/-- Code of a condition (rule R74). -/
def Cond.code : Cond → BitVec 2
  | .nz => 0 | .z => 1 | .nc => 2 | .c => 3

/-- The bit pattern of each form (rules R76, R77): `x y z`, two, three and three bits. -/
def Form.opcode : Form → Byte
  | .ldRR dst src => 0b01#2 ++ dst.code ++ src.code
  | .ldRMHl dst => 0b01#2 ++ dst.code ++ codeMHl
  | .ldMHlR src => 0b01#2 ++ codeMHl ++ src.code
  | .ldRD8 dst => 0b00#2 ++ dst.code ++ 0b110#3
  | .ldMHlD8 => 0b00110110#8
  | .ldAMBc => 0b00001010#8
  | .ldAMDe => 0b00011010#8
  | .ldMBcA => 0b00000010#8
  | .ldMDeA => 0b00010010#8
  | .ldAMA16 => 0b11111010#8
  | .ldhMA8A => 0b11100000#8
  | .ldhAMA8 => 0b11110000#8
  | .ldMCA => 0b11100010#8
  | .ldAMC => 0b11110010#8
  | .ldMHlIncA => 0b00100010#8
  | .ldMHlDecA => 0b00110010#8
  | .ldAMHlInc => 0b00101010#8
  | .ldAMHlDec => 0b00111010#8
  | .ldMA16Sp => 0b00001000#8
  | .ldMA16A => 0b11101010#8
  | .ldRrD16 p => 0b00#2 ++ p.code ++ 0b0001#4
  | .ldSpHl => 0b11111001#8
  | .incR r => 0b00#2 ++ r.code ++ 0b100#3
  | .incMHl => 0b00110100#8
  | .decR r => 0b00#2 ++ r.code ++ 0b101#3
  | .decMHl => 0b00110101#8
  | .incRr p => 0b00#2 ++ p.code ++ 0b0011#4
  | .decRr p => 0b00#2 ++ p.code ++ 0b1011#4
  | .cpR r => 0b10111#5 ++ r.code
  | .cpMHl => 0b10111110#8
  | .cpD8 => 0b11111110#8
  | .jr => 0b00011000#8
  | .jrCc cc => 0b001#3 ++ cc.code ++ 0b000#3
  | .pushRr p => 0b11#2 ++ p.code ++ 0b0101#4
  | .popRr p => 0b11#2 ++ p.code ++ 0b0001#4
  | .call => 0b11001101#8
  | .ret => 0b11001001#8
  | .reti => 0b11011001#8
  | .ei => 0b11111011#8
  | .di => 0b11110011#8
  | .prefixCb => 0b11001011#8
  | .rlR r => 0b00010#5 ++ r.code
  | .rlMHl => 0b00010#5 ++ codeMHl
  | .bitR b r => 0b01#2 ++ BitVec.ofNat 3 b ++ r.code
  | .bitMHl b => 0b01#2 ++ BitVec.ofNat 3 b ++ codeMHl

/-- The opcode byte of an instruction in its own table. -/
def Instr.opcode (i : Instr) : Byte := i.form.opcode

/-- The bytes of an immediate part, low byte first (rule R75). -/
def Imm.bytes : Imm → List Byte
  | .none => []
  | .byte v => [v]
  | .word v => [loByte v, hiByte v]

/-- The bytes of an instruction (rule R70). -/
def encode (c : Code) : List Byte :=
  (if c.instr.form.isCb then [0xCB#8] else []) ++ [c.instr.opcode] ++ c.imm.bytes

/-! ## The words of spec/opcode_table.json -/

/-- The first three bytes of an instruction whose bits the opcode table numbers as `w`. The table numbers a
first-table row from the opcode byte up (opcode in bits 7 to 0), and a second-table row as the 16-bit number
0xCB followed by the second opcode (prefix in bits 15 to 8); no other 16-bit row has 0xCB there when its
operand bits are 0 (log 13). -/
def tableBytes (nbits w : Nat) : Byte × Byte × Byte :=
  if nbits = 16 ∧ w / 256 % 256 = 0xCB then (0xCB#8, BitVec.ofNat 8 w, 0#8)
  else (BitVec.ofNat 8 w, BitVec.ofNat 8 (w / 256), BitVec.ofNat 8 (w / 65536))

/-- The instruction the decoder reads from the bytes of an opcode-table word. -/
def decodeTableWord (nbits w : Nat) : Option Instr :=
  match tableBytes nbits w with
  | (b0, b1, b2) =>
    match decode [b0, b1, b2] with
    | .ok (c, _) => some c.instr
    | .error _ => none

end Sys2Proof
end

