-- ==== Sys2Proof/Config.lean ====
section
/-!
DEFINITION. The free values of the model and the sizes the source fixes. CORE's only free values are what the
two opaque external devices, the cartridge and the timer, answer once they have been written to
(20_memory.md rule R44, 93_implementation_defined.md U13; logs 3 and 4). The open parameters that have a
default (00_scope.md rule R301) stand in Machine/Params.lean.
-/

namespace Sys2Proof

/-- What a cartridge of unknown behaviour answers to a read of an address, given the bytes it answered before
any write and the writes it has been given since, newest first (rules R44, R48; log 3). No body: nothing
can be proved about a value of it. -/
opaque Config.cartAnswer : List Host.Cell → List (Word × Byte) → Word → Byte

/-- The same for a timer of unknown behaviour (rules R53, R240; log 4). -/
opaque Config.timerAnswer : List Host.Cell → List (Word × Byte) → Word → Byte

/-- Bytes of video RAM (rule R35). -/
def Config.vramSize : Nat := 8192
/-- Bytes of object-attribute memory (rule R36). -/
def Config.oamSize : Nat := 160
/-- Bytes of the frame buffer, 160 columns by 144 lines (rule R37). -/
def Config.fbSize : Nat := 23040
/-- Offsets of the boot ROM (rule R45). -/
def Config.bootRomSize : Nat := 256
/-- Offsets of working RAM (rule R45). -/
def Config.wramSize : Nat := 8192
/-- Offsets of high RAM, 0xFF80 to 0xFFFE (rules R45, R57). -/
def Config.hramSize : Nat := 127

end Sys2Proof
end

