-- ==== Sys2Proof/Machine/State.lean ====
section
/-!
DEFINITION. The state of CORE (10_state.md) beside the contents of the five external devices (20_memory.md rule
R44), the faults and refusals of the host interface, and the state after reset (70_reset_and_hazards.md rule
R260). Everything is plain data.
-/

namespace Sys2Proof.Machine

/-- A block of bytes: pairs (offset, byte), offsets strictly rising, no entry equal to what an unlisted offset
reads as (`Memory.wf`, Machine/Memory.lean). -/
abbrev Memory := List Host.Cell

/-- The register file (rules R10, R11, R16, R17). -/
structure Regs where
  a : Byte
  b : Byte
  c : Byte
  d : Byte
  e : Byte
  f : Byte
  h : Byte
  l : Byte
  sp : Word
  pc : Word
deriving DecidableEq, Repr

/-- The Instruction Context and the micro-step state it owns (rules R18, R20). -/
structure Ctx where
  opcode : Byte
  cb : Bool
  mstep : Nat
  lat8 : Byte
  lat16 : Word
deriving DecidableEq, Repr

/-- The engine phase (rule R19). -/
inductive Phase where
  | boot | run | faulted
deriving DecidableEq, Repr

/-- What the one fault records (rule R200). -/
structure FaultRecord where
  cb : Bool
  opcode : Byte
  addr : Word
deriving DecidableEq, Repr

/-- The Interrupt State (rules R21, R22, R23). -/
structure Irq where
  ime : Bool
  flags : Byte
  enable : Byte
deriving DecidableEq, Repr

/-- The PPU's four modes (rule R25). -/
inductive PpuMode where
  | hblank | vblank | oamScan | drawing
deriving DecidableEq, Repr

/-- PPU State (rules R25 to R37) and the output of the last PPU step (rule R235). -/
structure Ppu where
  mode : PpuMode
  cnt : Nat
  ly : Byte
  lyc : Byte
  lcdc : Byte
  statCfg : BitVec 4
  lycEq : Bool
  scy : Byte
  scx : Byte
  wy : Byte
  wx : Byte
  bgp : Byte
  obp0 : Byte
  obp1 : Byte
  vram : Memory
  oam : Memory
  fb : Memory
  frameComplete : Bool
deriving DecidableEq, Repr

/-- What an opaque external device does with a write (rule R44: it "may ignore writes to its ROM range or treat them
as bank-switch commands"; log 3). -/
inductive DeviceKind where
  /-- It keeps a byte written at address `base` or above and ignores a write below. -/
  | keeps (base : Nat)
  /-- Nothing is known of it: once it has been given a write, every answer is a free value. -/
  | unknown
deriving DecidableEq, Repr

/-- An opaque external device: what it answers before any write, and (kind `unknown`) the writes it has been
given, newest first. -/
structure Device where
  kind : DeviceKind
  cells : Memory
  log : List (Word × Byte)
deriving DecidableEq, Repr

/-- The five external devices (rule R44). -/
structure Devices where
  bootRom : Memory
  cart : Device
  wram : Memory
  hram : Memory
  timer : Device
deriving DecidableEq, Repr

/-- The whole machine. `extIrq` is the model's own field: the external interrupt vectors of the coming ticks, 0 when the
list is used up (rule R209; log 5). -/
structure State where
  regs : Regs
  ctx : Ctx
  phase : Phase
  fault : Option FaultRecord
  irq : Irq
  bootActive : Bool
  ppu : Ppu
  dev : Devices
  extIrq : List (BitVec 5)
deriving DecidableEq, Repr

/-- Why a step stops without a next state. The machine's own fault, UnimplementedOpcode, is a next state (log 9). -/
inductive Fault where
  /-- Raised by a meaning when `mstep` is not the index of a cycle of its listing, for which no rule gives an
  effect; no state a run reaches is such a state (`State.Inv`). Safe (log 10). -/
  | noSuchCycle (mstep : Nat)
deriving DecidableEq, Repr

/-- Why the model gives no meaning. -/
inductive Refusal where
  /-- Raised by an arm of `exec` that has no meaning yet; no arm does now. Safe. -/
  | notModelled (mnemonic : String)
deriving DecidableEq, Repr

/-- The machine right after power-on (rule R260; log 1). The devices hold nothing (log 2), the cartridge and the
timer are of unknown behaviour (logs 3, 4), no external interrupt is coming (log 5). -/
def State.reset : State where
  regs := { a := 0, b := 0, c := 0, d := 0, e := 0, f := 0, h := 0, l := 0, sp := 0, pc := 0 }
  ctx := { opcode := 0, cb := false, mstep := 0, lat8 := 0, lat16 := 0 }
  phase := .boot
  fault := none
  irq := { ime := false, flags := 0, enable := 0 }
  bootActive := true
  ppu :=
    { mode := .oamScan, cnt := 20, ly := 0, lyc := 0, lcdc := 0, statCfg := 0, lycEq := false, scy := 0,
      scx := 0, wy := 0, wx := 0, bgp := 0, obp0 := 0, obp1 := 0, vram := [], oam := [], fb := [],
      frameComplete := false }
  dev :=
    { bootRom := [], cart := { kind := .unknown, cells := [], log := [] }, wram := [], hram := [],
      timer := { kind := .unknown, cells := [], log := [] } }
  extIrq := []

end Sys2Proof.Machine
end

