-- ==== Sys2Proof/Machine/Memory.lean ====
section
/-!
DEFINITION. Reading and writing a block of bytes held as a list in canonical form, and an opaque device.
-/

namespace Sys2Proof.Machine

/-- What an unlisted offset reads as: the reset content of vram, oam and fb (rule R260), and of a device that
nothing has written (log 2). -/
def unlistedByte : Byte := 0

/-- The byte at an offset. -/
def Memory.read : Memory → Nat → Byte
  | [], _ => unlistedByte
  | (k, v) :: m, a => if a = k then v else Memory.read m a

/-- The block with one byte written; writing what an unlisted offset reads as removes the entry. -/
def Memory.write : Memory → Nat → Byte → Memory
  | [], a, v => if v = unlistedByte then [] else [(a, v)]
  | (k, w) :: m, a, v =>
    if a < k then
      if v = unlistedByte then (k, w) :: m else (a, v) :: (k, w) :: m
    else if a = k then
      if v = unlistedByte then m else (a, v) :: m
    else (k, w) :: Memory.write m a v

/-- The canonical form: offsets strictly rising, no entry that an unlisted offset would read as. -/
abbrev Memory.wf (m : Memory) : Prop :=
  m.Pairwise (fun x y => x.1 < y.1) ∧ ∀ c ∈ m, c.2 ≠ unlistedByte

/-- Every listed offset is below a bound. -/
abbrev Memory.below (m : Memory) (n : Nat) : Prop := ∀ c ∈ m, c.1 < n

/-- The byte an opaque device answers (rule R44); `answer` is its free answer once it has been written to. -/
def Device.read (answer : Memory → List (Word × Byte) → Word → Byte) (d : Device) (a : Word) : Byte :=
  match d.kind, d.log with
  | .unknown, w :: ws => answer d.cells (w :: ws) a
  | .unknown, [] => d.cells.read a.toNat
  | .keeps _, _ => d.cells.read a.toNat

/-- An opaque device given a byte (rule R44). -/
def Device.write (d : Device) (a : Word) (v : Byte) : Device :=
  match d.kind with
  | .keeps base => if base ≤ a.toNat then { d with cells := d.cells.write a.toNat v } else d
  | .unknown => { d with log := (a, v) :: d.log }

end Sys2Proof.Machine
end

