-- ==== Sys2Proof/Machine/Params.lean ====
section
/-!
DEFINITION. The open parameters of 00_scope.md rule R301 that have a default, at that default (log 6). The maps
OPCODE_MAP, ADDR_MAP and PPU_REG_ADDR are the tables of Decode.lean and Machine/Bus.lean; RESET_STATE is
`State.reset`; ExtIrq and the devices are data in State.
-/

namespace Sys2Proof.Machine

/-- ECHO_RAM: do 0xE000 to 0xFDFF mirror working RAM (rule R51, D24)? -/
def Params.echoRam : Bool := true

/-- BOOT_DISABLE_PRED: does writing `v` to 0xFF50 switch the overlay off (rule R55, D23)? -/
def Params.bootDisables (_v : Byte) : Bool := true

/-- PPU_IRQ: does the PPU raise interrupts (rule R236, D16)? -/
def Params.ppuIrq : Bool := true

end Sys2Proof.Machine
end

