-- ==== Sys2Proof/Machine/Bus.lean ====
section
/-!
DEFINITION. The bus dispatcher (20_memory.md): the address decode, one byte read, one byte write.
-/

namespace Sys2Proof.Machine

/-- The PPU registers on the bus (rule R52). -/
inductive PpuReg where
  | lcdc | stat | scy | scx | ly | lyc | bgp | obp0 | obp1 | wy | wx
deriving DecidableEq, Repr

/-- What an address selects (rule R46), with the offset the target receives (rule R45). -/
inductive Target where
  | bootRom (off : Nat)
  | cart (addr : Word)
  | vram (off : Nat)
  | wram (off : Nat)
  | oam (off : Nat)
  | timer (addr : Word)
  | intFlags
  | ppuReg (r : PpuReg)
  | bootSwitch
  | hram (off : Nat)
  | intEnable
  | unmapped
deriving DecidableEq, Repr

/-- The register at 0xFF40 plus an offset of 0 to 11 (rule R52); 0xFF46 holds none. -/
def ppuRegAt : Nat → Target
  | 0 => .ppuReg .lcdc
  | 1 => .ppuReg .stat
  | 2 => .ppuReg .scy
  | 3 => .ppuReg .scx
  | 4 => .ppuReg .ly
  | 5 => .ppuReg .lyc
  | 7 => .ppuReg .bgp
  | 8 => .ppuReg .obp0
  | 9 => .ppuReg .obp1
  | 10 => .ppuReg .wy
  | 11 => .ppuReg .wx
  | _ => .unmapped

/-- The address decode (rule R46): ranges tested in order, first match wins. The masks of rule R45 are written as
remainders by the power of two. -/
def decodeAddr (echoRam bootActive : Bool) (addr : Word) : Target :=
  let a := addr.toNat
  if a ≤ 0x00FF ∧ bootActive = true then .bootRom (a % 0x100)
  else if a ≤ 0x7FFF then .cart addr
  else if a ≤ 0x9FFF then .vram (a % 0x2000)
  else if a ≤ 0xBFFF then .cart addr
  else if a ≤ 0xDFFF then .wram (a % 0x2000)
  else if a ≤ 0xFDFF then (if echoRam then .wram (a % 0x2000) else .unmapped)
  else if a ≤ 0xFE9F then .oam (a % 0x100)
  else if 0xFF04 ≤ a ∧ a ≤ 0xFF07 then .timer addr
  else if a = 0xFF0F then .intFlags
  else if 0xFF40 ≤ a ∧ a ≤ 0xFF4B then ppuRegAt (a - 0xFF40)
  else if a = 0xFF50 then .bootSwitch
  else if 0xFF80 ≤ a ∧ a ≤ 0xFFFE then .hram (a % 0x80)
  else if a = 0xFFFF then .intEnable
  else .unmapped

/-- The target of an address in a state. -/
def State.target (s : State) (addr : Word) : Target := decodeAddr Params.echoRam s.bootActive addr

/-- The open-bus value (rule R41). -/
def openBus : Byte := 0xFF

/-- The number of a mode (rule R25). -/
def PpuMode.code : PpuMode → BitVec 2
  | .hblank => 0 | .vblank => 1 | .oamScan => 2 | .drawing => 3

/-- Drawing forbids video RAM (rule R49). -/
def PpuMode.locksVram : PpuMode → Bool
  | .drawing => true
  | .hblank | .vblank | .oamScan => false

/-- Drawing and OamScan forbid object memory (rule R50). -/
def PpuMode.locksOam : PpuMode → Bool
  | .drawing | .oamScan => true
  | .hblank | .vblank => false

/-- The value STAT reads as, assembled on read (rule R31). -/
def Ppu.stat (p : Ppu) : Byte := 1#1 ++ p.statCfg ++ BitVec.ofBool p.lycEq ++ p.mode.code

/-- What a PPU register reads as (rule R52). -/
def Ppu.readReg (p : Ppu) : PpuReg → Byte
  | .lcdc => p.lcdc
  | .stat => p.stat
  | .scy => p.scy
  | .scx => p.scx
  | .ly => p.ly
  | .lyc => p.lyc
  | .bgp => p.bgp
  | .obp0 => p.obp0
  | .obp1 => p.obp1
  | .wy => p.wy
  | .wx => p.wx

/-- What a write to a PPU register does (rule R52): STAT takes bits 6 to 3 only, LY drops the write. -/
def Ppu.writeReg (p : Ppu) (r : PpuReg) (v : Byte) : Ppu :=
  match r with
  | .lcdc => { p with lcdc := v }
  | .stat => { p with statCfg := v.extractLsb' 3 4 }
  | .scy => { p with scy := v }
  | .scx => { p with scx := v }
  | .ly => p
  | .lyc => { p with lyc := v }
  | .bgp => { p with bgp := v }
  | .obp0 => { p with obp0 := v }
  | .obp1 => { p with obp1 := v }
  | .wy => { p with wy := v }
  | .wx => { p with wx := v }

/-- The byte a target answers (rules R47 to R57). -/
def readTarget (s : State) : Target → Byte
  | .bootRom off => s.dev.bootRom.read off
  | .cart addr => s.dev.cart.read Config.cartAnswer addr
  | .vram off => if s.ppu.mode.locksVram then openBus else s.ppu.vram.read off
  | .wram off => s.dev.wram.read off
  | .oam off => if s.ppu.mode.locksOam then openBus else s.ppu.oam.read off
  | .timer addr => s.dev.timer.read Config.timerAnswer addr
  | .intFlags => s.irq.flags
  | .ppuReg r => s.ppu.readReg r
  | .bootSwitch => openBus
  | .hram off => s.dev.hram.read off
  | .intEnable => s.irq.enable
  | .unmapped => openBus

/-- What a target does with a byte it is given (rules R47 to R57). -/
def writeTarget (s : State) (t : Target) (v : Byte) : State :=
  match t with
  | .bootRom _ => s
  | .cart addr => { s with dev := { s.dev with cart := s.dev.cart.write addr v } }
  | .vram off =>
    if s.ppu.mode.locksVram then s else { s with ppu := { s.ppu with vram := s.ppu.vram.write off v } }
  | .wram off => { s with dev := { s.dev with wram := s.dev.wram.write off v } }
  | .oam off =>
    if s.ppu.mode.locksOam then s else { s with ppu := { s.ppu with oam := s.ppu.oam.write off v } }
  | .timer addr => { s with dev := { s.dev with timer := s.dev.timer.write addr v } }
  | .intFlags => { s with irq := { s.irq with flags := v } }
  | .ppuReg r => { s with ppu := s.ppu.writeReg r v }
  | .bootSwitch => if Params.bootDisables v then { s with bootActive := false } else s
  | .hram off => { s with dev := { s.dev with hram := s.dev.hram.write off v } }
  | .intEnable => { s with irq := { s.irq with enable := v } }
  | .unmapped => s

/-- `MemRead(addr, 1)` (rule R41): it changes no state. -/
def busRead (s : State) (addr : Word) : Byte := readTarget s (s.target addr)

/-- `MemWrite(addr, 1, v)` (rule R42). -/
def busWrite (s : State) (addr : Word) (v : Byte) : State := writeTarget s (s.target addr) v

/-- A byte put in place from outside the machine, past locks and read-only devices: how a program is loaded
(log 12). An opaque device forgets the writes it was given. -/
def placeByte (s : State) (addr : Word) (v : Byte) : State :=
  match s.target addr with
  | .bootRom off => { s with dev := { s.dev with bootRom := s.dev.bootRom.write off v } }
  | .cart a =>
    { s with dev := { s.dev with cart := { s.dev.cart with cells := s.dev.cart.cells.write a.toNat v, log := [] } } }
  | .vram off => { s with ppu := { s.ppu with vram := s.ppu.vram.write off v } }
  | .wram off => { s with dev := { s.dev with wram := s.dev.wram.write off v } }
  | .oam off => { s with ppu := { s.ppu with oam := s.ppu.oam.write off v } }
  | .timer a =>
    { s with dev := { s.dev with timer := { s.dev.timer with cells := s.dev.timer.cells.write a.toNat v, log := [] } } }
  | .intFlags => { s with irq := { s.irq with flags := v } }
  | .ppuReg r => { s with ppu := s.ppu.writeReg r v }
  | .bootSwitch => s
  | .hram off => { s with dev := { s.dev with hram := s.dev.hram.write off v } }
  | .intEnable => { s with irq := { s.irq with enable := v } }
  | .unmapped => s

end Sys2Proof.Machine
end

