-- ==== Sys2Proof/Machine/Ops.lean ====
section
/-!
DEFINITION. The named operations over registers, the engine and the stack: register access (10_state.md), Fetch and
the end of a cycle (40_engine_operands.md), the one fault (60_exceptions.md), and pushing and popping a byte
(46_push_pop.md rule R183).
-/

namespace Sys2Proof.Machine

/-- What a step of the machine or of one instruction answers. -/
abbrev Result := Host.Outcome State Fault Refusal

/-! ## The register file -/

/-- Read an 8-bit register (rule R98). -/
def Regs.get8 (g : Regs) : Reg8 → Byte
  | .a => g.a | .b => g.b | .c => g.c | .d => g.d | .e => g.e | .h => g.h | .l => g.l

/-- Write an 8-bit register (rule R98). -/
def Regs.set8 (g : Regs) (r : Reg8) (v : Byte) : Regs :=
  match r with
  | .a => { g with a := v }
  | .b => { g with b := v }
  | .c => { g with c := v }
  | .d => { g with d := v }
  | .e => { g with e := v }
  | .h => { g with h := v }
  | .l => { g with l := v }

/-- Read a pair or SP (rule R12): the first register is the high byte. -/
def Regs.get16 (g : Regs) : Reg16 → Word
  | .bc => joinBytes g.b g.c
  | .de => joinBytes g.d g.e
  | .hl => joinBytes g.h g.l
  | .af => joinBytes g.a g.f
  | .sp => g.sp

/-- Write a pair or SP (rule R13): a write to AF clears the low nibble of F. -/
def Regs.set16 (g : Regs) (p : Reg16) (v : Word) : Regs :=
  match p with
  | .bc => { g with b := hiByte v, c := loByte v }
  | .de => { g with d := hiByte v, e := loByte v }
  | .hl => { g with h := hiByte v, l := loByte v }
  | .af => { g with a := hiByte v, f := loByte v &&& 0xF0 }
  | .sp => { g with sp := v }

def State.get8 (s : State) (r : Reg8) : Byte := s.regs.get8 r
def State.set8 (s : State) (r : Reg8) (v : Byte) : State := { s with regs := s.regs.set8 r v }
def State.get16 (s : State) (p : Reg16) : Word := s.regs.get16 p
def State.set16 (s : State) (p : Reg16) (v : Word) : State := { s with regs := s.regs.set16 p v }
/-- Write F; the callers change flag bits only (rule R14). -/
def State.setF (s : State) (f : Byte) : State := { s with regs := { s.regs with f := f } }
def State.setPc (s : State) (w : Word) : State := { s with regs := { s.regs with pc := w } }
def State.setSp (s : State) (w : Word) : State := { s with regs := { s.regs with sp := w } }

/-! ## The latches and the micro-step counter -/

def State.setLat8 (s : State) (v : Byte) : State := { s with ctx := { s.ctx with lat8 := v } }
/-- `lat16[7:0] <- v`. -/
def State.setLat16Lo (s : State) (v : Byte) : State :=
  { s with ctx := { s.ctx with lat16 := joinBytes (hiByte s.ctx.lat16) v } }
/-- `lat16[15:8] <- v`. -/
def State.setLat16Hi (s : State) (v : Byte) : State :=
  { s with ctx := { s.ctx with lat16 := joinBytes v (loByte s.ctx.lat16) } }

/-- Fetch (rule R92): the byte at PC becomes the opcode, PC advances, the prefix flag and the micro-step counter are
cleared. -/
def fetch (s : State) : State :=
  { s with
    ctx := { s.ctx with opcode := busRead s s.regs.pc, cb := false, mstep := 0 }
    regs := { s.regs with pc := s.regs.pc + 1 } }

/-- `mstep <- mstep + 1` (rule R94). -/
def State.advance (s : State) : State := { s with ctx := { s.ctx with mstep := s.ctx.mstep + 1 } }

/-- The end of a cycle that does not complete the instruction (rule R94). -/
def endCycle (s : State) : Result := .next s.advance

/-- The end of an instruction's last cycle: the trailing fetch (rule R93). -/
def complete (s : State) : Result := .next (fetch s)

/-- A cycle index that is no line of the listing: the spec gives no effect (log 10). -/
def noCycle (s : State) : Result := .fault (.noSuchCycle s.ctx.mstep)

/-! ## The fault, and the return instruction's write -/

/-- Raise `UnimplementedOpcode` (rules R91, R200, R201): the record is (cb, opcode, pc - 1), the phase becomes Faulted,
and nothing else changes. -/
def raiseUnimplemented (s : State) : State :=
  { s with
    phase := .faulted
    fault := some { cb := s.ctx.cb, opcode := s.ctx.opcode, addr := s.regs.pc - 1 } }

/-- `ime <- b`: EI, DI, and the one thing RETI does beyond RET (rules R190, R191, R187, R213). -/
def State.setIme (s : State) (b : Bool) : State := { s with irq := { s.irq with ime := b } }

/-! ## The stack (rule R183) -/

/-- SP is decremented, then the byte is written at the new SP. -/
def pushByte (s : State) (v : Byte) : State := busWrite (s.setSp (s.regs.sp - 1)) (s.regs.sp - 1) v

/-- The byte at SP is read into the low half of `lat16`, then SP is incremented. -/
def popLow (s : State) : State := (s.setLat16Lo (busRead s s.regs.sp)).setSp (s.regs.sp + 1)

/-- The same into the high half. -/
def popHigh (s : State) : State := (s.setLat16Hi (busRead s s.regs.sp)).setSp (s.regs.sp + 1)

end Sys2Proof.Machine
end

