-- ==== Sys2Proof/Machine/Operands.lean ====
section
/-!
DEFINITION. The operand kinds that touch memory (40_engine_operands.md rules R97 to R104): what each does in the cycle
that issues its bus access. Kinds R8 and R16 are the register accessors of Ops.lean. `lines` counts the cycles of
each form's own listing and `cost` is the table of rule R110.
-/

namespace Sys2Proof.Machine

/-- Kind IMM8 (rule R99): one byte of the instruction stream into `lat8`; PC advances. -/
def readImm8 (s : State) : State := (s.setLat8 (busRead s s.regs.pc)).setPc (s.regs.pc + 1)

/-- Kind IMM16, first cycle (rule R100): the low byte of `lat16`. -/
def readImm16Lo (s : State) : State := (s.setLat16Lo (busRead s s.regs.pc)).setPc (s.regs.pc + 1)

/-- Kind IMM16, second cycle (rule R100): the high byte of `lat16`. -/
def readImm16Hi (s : State) : State := (s.setLat16Hi (busRead s s.regs.pc)).setPc (s.regs.pc + 1)

/-- `0xFF00 | zext_16(off)`, the high page (rules R101, R102). -/
def highPage (off : Byte) : Word := joinBytes 0xFF off

/-- The effective address of kind IND (rule R101). -/
def indAddr (s : State) : Ind → Word
  | .bc => s.get16 .bc
  | .de => s.get16 .de
  | .hl | .hlInc | .hlDec => s.get16 .hl
  | .highC => highPage s.regs.c

/-- The register update of kind IND, after the address is taken (rule R101). -/
def indUpdate (s : State) : Ind → State
  | .hlInc => s.set16 .hl (s.get16 .hl + 1)
  | .hlDec => s.set16 .hl (s.get16 .hl - 1)
  | .bc | .de | .hl | .highC => s

/-- Kind IND, read, in its issuing cycle: the byte into `lat8`. -/
def readInd (k : Ind) (s : State) : State := indUpdate (s.setLat8 (busRead s (indAddr s k))) k

/-- Kind IND, write, in its issuing cycle. -/
def writeInd (k : Ind) (v : Byte) (s : State) : State := indUpdate (busWrite s (indAddr s k) v) k

/-- Kind DIR8, access cycle (rule R102): the address comes from `lat8`. -/
def dir8Addr (s : State) : Word := highPage s.ctx.lat8

/-- Kind DIR16, access cycle (rule R103): the address is `lat16`. -/
def dir16Addr (s : State) : Word := s.ctx.lat16

/-- `sext_16(v)` (rule R302). -/
def sext16 (v : Byte) : Word := v.signExtend 16

/-! ## Cycles -/

/-- How many cycles a form's own listing has (41_ld.md to 48_ei_di.md, R108); JR cc has three when taken. -/
def lines : Form → Nat
  | .ldRR _ _ | .ldSpHl | .incR _ | .decR _ | .cpR _ | .ei | .di | .rlR _ | .bitR _ _ => 1
  | .ldRMHl _ | .ldMHlR _ | .ldRD8 _ | .ldAMBc | .ldAMDe | .ldMBcA | .ldMDeA | .ldMCA | .ldAMC
  | .ldMHlIncA | .ldMHlDecA | .ldAMHlInc | .ldAMHlDec | .incRr _ | .decRr _ | .cpMHl | .cpD8 | .prefixCb
  | .bitMHl _ => 2
  | .ldMHlD8 | .ldhMA8A | .ldhAMA8 | .ldRrD16 _ | .incMHl | .decMHl | .jr | .jrCc _ | .popRr _ | .rlMHl => 3
  | .ldAMA16 | .ldMA16A | .pushRr _ | .ret | .reti => 4
  | .ldMA16Sp => 5
  | .call => 6

/-- The cost in ticks (rule R110), trailing fetch included, a second-table instruction with its prefix cycle; `taken` is
whether the condition of JR cc holds. PREFIX CB itself adds one cycle to what it introduces. -/
def cost (taken : Bool) : Form → Nat
  | .ldRR _ _ => 1
  | .ldRMHl _ => 2
  | .ldMHlR _ => 2
  | .ldRD8 _ => 2
  | .ldMHlD8 => 3
  | .ldAMBc | .ldAMDe => 2
  | .ldMBcA | .ldMDeA => 2
  | .ldAMHlInc | .ldAMHlDec => 2
  | .ldMHlIncA | .ldMHlDecA => 2
  | .ldAMC => 2
  | .ldMCA => 2
  | .ldhAMA8 => 3
  | .ldhMA8A => 3
  | .ldAMA16 => 4
  | .ldMA16A => 4
  | .ldRrD16 _ => 3
  | .ldMA16Sp => 5
  | .ldSpHl => 1
  | .incR _ | .decR _ => 1
  | .incMHl | .decMHl => 3
  | .incRr _ | .decRr _ => 2
  | .cpR _ => 1
  | .cpMHl | .cpD8 => 2
  | .rlR _ => 2
  | .rlMHl => 4
  | .bitR _ _ => 2
  | .bitMHl _ => 3
  | .jr => 3
  | .jrCc _ => if taken then 3 else 2
  | .pushRr _ => 4
  | .popRr _ => 3
  | .call => 6
  | .ret => 4
  | .reti => 4
  | .ei | .di => 1
  | .prefixCb => 1

end Sys2Proof.Machine
end

