-- ==== Sys2Proof/Machine/Call.lean ====
section
/-!
DEFINITION. CALL, RET and RETI (47_call_ret.md rules R185 to R188). RETI is the return instruction of this machine, which never takes a
trap (60_exceptions.md rules R212, R213).
-/

namespace Sys2Proof.Machine

/-- CALL a16 (rule R185): the pushed value is the address after the operand. -/
def callDir (s : State) : Result :=
  match s.ctx.mstep with
  | 0 => endCycle (readImm16Lo s)
  | 1 => endCycle (readImm16Hi s)
  | 2 => endCycle s
  | 3 => endCycle (pushByte s (hiByte s.regs.pc))
  | 4 => endCycle (pushByte s (loByte s.regs.pc))
  | 5 => complete (s.setPc s.ctx.lat16)
  | _ => noCycle s

/-- RET (rule R186). -/
def returnPop (s : State) : Result :=
  match s.ctx.mstep with
  | 0 => endCycle (popLow s)
  | 1 => endCycle (popHigh s)
  | 2 => endCycle (s.setPc s.ctx.lat16)
  | 3 => complete s
  | _ => noCycle s

/-- RETI (rule R187): RET, and `ime` is set in the last cycle (D27). -/
def returnPopEnable (s : State) : Result :=
  match s.ctx.mstep with
  | 0 => endCycle (popLow s)
  | 1 => endCycle (popHigh s)
  | 2 => endCycle (s.setPc s.ctx.lat16)
  | 3 => complete (s.setIme true)
  | _ => noCycle s

/-! ## The instructions -/

/-- RET (rule R186). -/
def execRet (s : State) : Result := returnPop s
/-- CALL a16 (rule R185). -/
def execCall (s : State) : Result := callDir s
/-- RETI (rule R187). -/
def execReti (s : State) : Result := returnPopEnable s

end Sys2Proof.Machine
end

