-- ==== Sys2Proof/Machine/Flags.lean ====
section
/-!
DEFINITION. The flag register F (10_state.md rules R11, R14) and every computation that writes it or reads it:
INC, DEC (42_inc_dec.md), CP (43_cp.md), RL and BIT (44_rl_bit.md), the conditions of JR cc (45_jr.md).
-/

namespace Sys2Proof.Machine

/-- Bit numbers of the four flags (rule R11). -/
inductive Flag where
  | z | n | h | c
deriving DecidableEq, Repr

def Flag.bit : Flag → Nat
  | .z => 7 | .n => 6 | .h => 5 | .c => 4

/-- Read one flag (rule R14). -/
def getFlag (f : Byte) (x : Flag) : Bool := f.getLsbD x.bit

/-- Write one flag: "individual bits of F via mask operations" (rule R14). -/
def setFlag (x : Flag) (v : Bool) (f : Byte) : Byte :=
  if v then f ||| (1#8 <<< x.bit) else f &&& ~~~(1#8 <<< x.bit)

/-- The low four bits of a byte. -/
def lowNibble (v : Byte) : BitVec 4 := v.extractLsb' 0 4

/-- Flags of an 8-bit increment of `v` (rule R150): C is kept. -/
def incFlags (v f : Byte) : Byte :=
  setFlag .h (lowNibble v == 0xF#4) (setFlag .n false (setFlag .z (v + 1 == 0#8) f))

/-- Flags of an 8-bit decrement of `v` (rule R152): C is kept. -/
def decFlags (v f : Byte) : Byte :=
  setFlag .h (lowNibble v == 0x0#4) (setFlag .n true (setFlag .z (v - 1 == 0#8) f))

/-- `Compare(v)` with accumulator `a` (rule R163). -/
def cpFlags (a v f : Byte) : Byte :=
  setFlag .c (a.ult v) (setFlag .h ((lowNibble a).ult (lowNibble v))
    (setFlag .n true (setFlag .z (a == v) f)))

/-- The result of `RotL(v)` (rule R169): the old carry enters bit 0. -/
def rotL (v f : Byte) : Byte := (v <<< 1) ||| BitVec.zeroExtend 8 (BitVec.ofBool (getFlag f .c))

/-- Flags of `RotL(v)` (rule R169): the old bit 7 leaves into C. -/
def rotLFlags (v f : Byte) : Byte :=
  setFlag .c (v.getLsbD 7) (setFlag .h false (setFlag .n false (setFlag .z (rotL v f == 0#8) f)))

/-- Flags of BIT b (rule R167): Z is the complement of the bit, H is set, C is kept. -/
def bitFlags (b : Fin 8) (v f : Byte) : Byte :=
  setFlag .h true (setFlag .n false (setFlag .z (!v.getLsbD b) f))

/-- The truth of a condition (rule R177). -/
def condHolds (cc : Cond) (f : Byte) : Bool :=
  match cc with
  | .nz => !getFlag f .z
  | .z => getFlag f .z
  | .nc => !getFlag f .c
  | .c => getFlag f .c

end Sys2Proof.Machine
end

