-- ==== Sys2Proof/Machine/Cb.lean ====
section
/-!
DEFINITION. The second opcode table, RL and BIT (44_rl_bit.md rules R165 to R169), and the instruction that reaches it, PREFIX CB
(40_engine_operands.md rule R108). The listings number an instruction's own cycles from 0.
-/

namespace Sys2Proof.Machine

/-- RL r (rule R165). -/
def rlReg (r : Reg8) (s : State) : Result :=
  match s.ctx.mstep with
  | 0 => complete ((s.setF (rotLFlags (s.get8 r) s.regs.f)).set8 r (rotL (s.get8 r) s.regs.f))
  | _ => noCycle s

/-- RL (HL) (rule R166): the flags follow the value read, in the cycle of the write (D31). -/
def rlInd (s : State) : Result :=
  match s.ctx.mstep with
  | 0 => endCycle (readInd .hl s)
  | 1 => endCycle (writeInd .hl (rotL s.ctx.lat8 s.regs.f) (s.setF (rotLFlags s.ctx.lat8 s.regs.f)))
  | 2 => complete s
  | _ => noCycle s

/-- BIT b,r (rule R167). -/
def bitReg (b : Fin 8) (r : Reg8) (s : State) : Result :=
  match s.ctx.mstep with
  | 0 => complete (s.setF (bitFlags b (s.get8 r) s.regs.f))
  | _ => noCycle s

/-- BIT b,(HL) (rule R168): no write cycle. -/
def bitInd (b : Fin 8) (s : State) : Result :=
  match s.ctx.mstep with
  | 0 => endCycle (readInd .hl s)
  | 1 => complete (s.setF (bitFlags b s.ctx.lat8 s.regs.f))
  | _ => noCycle s

/-! ## The instructions -/

/-- RL B (rule R165). -/
def execRlB (s : State) : Result := rlReg .b s
/-- RL C (rule R165). -/
def execRlC (s : State) : Result := rlReg .c s
/-- RL D (rule R165). -/
def execRlD (s : State) : Result := rlReg .d s
/-- RL E (rule R165). -/
def execRlE (s : State) : Result := rlReg .e s
/-- RL H (rule R165). -/
def execRlH (s : State) : Result := rlReg .h s
/-- RL L (rule R165). -/
def execRlL (s : State) : Result := rlReg .l s
/-- RL (HL) (rule R166). -/
def execRlMHl (s : State) : Result := rlInd s
/-- RL A (rule R165). -/
def execRlA (s : State) : Result := rlReg .a s
/-- BIT 0,B (rule R167). -/
def execBit0B (s : State) : Result := bitReg 0 .b s
/-- BIT 0,C (rule R167). -/
def execBit0C (s : State) : Result := bitReg 0 .c s
/-- BIT 0,D (rule R167). -/
def execBit0D (s : State) : Result := bitReg 0 .d s
/-- BIT 0,E (rule R167). -/
def execBit0E (s : State) : Result := bitReg 0 .e s
/-- BIT 0,H (rule R167). -/
def execBit0H (s : State) : Result := bitReg 0 .h s
/-- BIT 0,L (rule R167). -/
def execBit0L (s : State) : Result := bitReg 0 .l s
/-- BIT 0,(HL) (rule R168). -/
def execBit0MHl (s : State) : Result := bitInd 0 s
/-- BIT 0,A (rule R167). -/
def execBit0A (s : State) : Result := bitReg 0 .a s
/-- BIT 1,B (rule R167). -/
def execBit1B (s : State) : Result := bitReg 1 .b s
/-- BIT 1,C (rule R167). -/
def execBit1C (s : State) : Result := bitReg 1 .c s
/-- BIT 1,D (rule R167). -/
def execBit1D (s : State) : Result := bitReg 1 .d s
/-- BIT 1,E (rule R167). -/
def execBit1E (s : State) : Result := bitReg 1 .e s
/-- BIT 1,H (rule R167). -/
def execBit1H (s : State) : Result := bitReg 1 .h s
/-- BIT 1,L (rule R167). -/
def execBit1L (s : State) : Result := bitReg 1 .l s
/-- BIT 1,(HL) (rule R168). -/
def execBit1MHl (s : State) : Result := bitInd 1 s
/-- BIT 1,A (rule R167). -/
def execBit1A (s : State) : Result := bitReg 1 .a s
/-- BIT 2,B (rule R167). -/
def execBit2B (s : State) : Result := bitReg 2 .b s
/-- BIT 2,C (rule R167). -/
def execBit2C (s : State) : Result := bitReg 2 .c s
/-- BIT 2,D (rule R167). -/
def execBit2D (s : State) : Result := bitReg 2 .d s
/-- BIT 2,E (rule R167). -/
def execBit2E (s : State) : Result := bitReg 2 .e s
/-- BIT 2,H (rule R167). -/
def execBit2H (s : State) : Result := bitReg 2 .h s
/-- BIT 2,L (rule R167). -/
def execBit2L (s : State) : Result := bitReg 2 .l s
/-- BIT 2,(HL) (rule R168). -/
def execBit2MHl (s : State) : Result := bitInd 2 s
/-- BIT 2,A (rule R167). -/
def execBit2A (s : State) : Result := bitReg 2 .a s
/-- BIT 3,B (rule R167). -/
def execBit3B (s : State) : Result := bitReg 3 .b s
/-- BIT 3,C (rule R167). -/
def execBit3C (s : State) : Result := bitReg 3 .c s
/-- BIT 3,D (rule R167). -/
def execBit3D (s : State) : Result := bitReg 3 .d s
/-- BIT 3,E (rule R167). -/
def execBit3E (s : State) : Result := bitReg 3 .e s
/-- BIT 3,H (rule R167). -/
def execBit3H (s : State) : Result := bitReg 3 .h s
/-- BIT 3,L (rule R167). -/
def execBit3L (s : State) : Result := bitReg 3 .l s
/-- BIT 3,(HL) (rule R168). -/
def execBit3MHl (s : State) : Result := bitInd 3 s
/-- BIT 3,A (rule R167). -/
def execBit3A (s : State) : Result := bitReg 3 .a s
/-- BIT 4,B (rule R167). -/
def execBit4B (s : State) : Result := bitReg 4 .b s
/-- BIT 4,C (rule R167). -/
def execBit4C (s : State) : Result := bitReg 4 .c s
/-- BIT 4,D (rule R167). -/
def execBit4D (s : State) : Result := bitReg 4 .d s
/-- BIT 4,E (rule R167). -/
def execBit4E (s : State) : Result := bitReg 4 .e s
/-- BIT 4,H (rule R167). -/
def execBit4H (s : State) : Result := bitReg 4 .h s
/-- BIT 4,L (rule R167). -/
def execBit4L (s : State) : Result := bitReg 4 .l s
/-- BIT 4,(HL) (rule R168). -/
def execBit4MHl (s : State) : Result := bitInd 4 s
/-- BIT 4,A (rule R167). -/
def execBit4A (s : State) : Result := bitReg 4 .a s
/-- BIT 5,B (rule R167). -/
def execBit5B (s : State) : Result := bitReg 5 .b s
/-- BIT 5,C (rule R167). -/
def execBit5C (s : State) : Result := bitReg 5 .c s
/-- BIT 5,D (rule R167). -/
def execBit5D (s : State) : Result := bitReg 5 .d s
/-- BIT 5,E (rule R167). -/
def execBit5E (s : State) : Result := bitReg 5 .e s
/-- BIT 5,H (rule R167). -/
def execBit5H (s : State) : Result := bitReg 5 .h s
/-- BIT 5,L (rule R167). -/
def execBit5L (s : State) : Result := bitReg 5 .l s
/-- BIT 5,(HL) (rule R168). -/
def execBit5MHl (s : State) : Result := bitInd 5 s
/-- BIT 5,A (rule R167). -/
def execBit5A (s : State) : Result := bitReg 5 .a s
/-- BIT 6,B (rule R167). -/
def execBit6B (s : State) : Result := bitReg 6 .b s
/-- BIT 6,C (rule R167). -/
def execBit6C (s : State) : Result := bitReg 6 .c s
/-- BIT 6,D (rule R167). -/
def execBit6D (s : State) : Result := bitReg 6 .d s
/-- BIT 6,E (rule R167). -/
def execBit6E (s : State) : Result := bitReg 6 .e s
/-- BIT 6,H (rule R167). -/
def execBit6H (s : State) : Result := bitReg 6 .h s
/-- BIT 6,L (rule R167). -/
def execBit6L (s : State) : Result := bitReg 6 .l s
/-- BIT 6,(HL) (rule R168). -/
def execBit6MHl (s : State) : Result := bitInd 6 s
/-- BIT 6,A (rule R167). -/
def execBit6A (s : State) : Result := bitReg 6 .a s
/-- BIT 7,B (rule R167). -/
def execBit7B (s : State) : Result := bitReg 7 .b s
/-- BIT 7,C (rule R167). -/
def execBit7C (s : State) : Result := bitReg 7 .c s
/-- BIT 7,D (rule R167). -/
def execBit7D (s : State) : Result := bitReg 7 .d s
/-- BIT 7,E (rule R167). -/
def execBit7E (s : State) : Result := bitReg 7 .e s
/-- BIT 7,H (rule R167). -/
def execBit7H (s : State) : Result := bitReg 7 .h s
/-- BIT 7,L (rule R167). -/
def execBit7L (s : State) : Result := bitReg 7 .l s
/-- BIT 7,(HL) (rule R168). -/
def execBit7MHl (s : State) : Result := bitInd 7 s
/-- BIT 7,A (rule R167). -/
def execBit7A (s : State) : Result := bitReg 7 .a s

/-! ## The prefix instruction -/

/-- The second half of the prefix (rule R108): the second opcode is installed in the Instruction Context. -/
def installSecond (s : State) : State :=
  { s with ctx := { s.ctx with opcode := s.ctx.lat8, cb := true, mstep := 0 } }

/-- `Dispatch()` with the prefix flag set (rules R91, R108): the handler of the second table that the opcode selects, or the
fault. -/
def redispatch (s : State) : Result :=
  match decodeOpcode true s.ctx.opcode with
  | some .rlB => execRlB s
  | some .rlC => execRlC s
  | some .rlD => execRlD s
  | some .rlE => execRlE s
  | some .rlH => execRlH s
  | some .rlL => execRlL s
  | some .rlMHl => execRlMHl s
  | some .rlA => execRlA s
  | some .bit0B => execBit0B s
  | some .bit0C => execBit0C s
  | some .bit0D => execBit0D s
  | some .bit0E => execBit0E s
  | some .bit0H => execBit0H s
  | some .bit0L => execBit0L s
  | some .bit0MHl => execBit0MHl s
  | some .bit0A => execBit0A s
  | some .bit1B => execBit1B s
  | some .bit1C => execBit1C s
  | some .bit1D => execBit1D s
  | some .bit1E => execBit1E s
  | some .bit1H => execBit1H s
  | some .bit1L => execBit1L s
  | some .bit1MHl => execBit1MHl s
  | some .bit1A => execBit1A s
  | some .bit2B => execBit2B s
  | some .bit2C => execBit2C s
  | some .bit2D => execBit2D s
  | some .bit2E => execBit2E s
  | some .bit2H => execBit2H s
  | some .bit2L => execBit2L s
  | some .bit2MHl => execBit2MHl s
  | some .bit2A => execBit2A s
  | some .bit3B => execBit3B s
  | some .bit3C => execBit3C s
  | some .bit3D => execBit3D s
  | some .bit3E => execBit3E s
  | some .bit3H => execBit3H s
  | some .bit3L => execBit3L s
  | some .bit3MHl => execBit3MHl s
  | some .bit3A => execBit3A s
  | some .bit4B => execBit4B s
  | some .bit4C => execBit4C s
  | some .bit4D => execBit4D s
  | some .bit4E => execBit4E s
  | some .bit4H => execBit4H s
  | some .bit4L => execBit4L s
  | some .bit4MHl => execBit4MHl s
  | some .bit4A => execBit4A s
  | some .bit5B => execBit5B s
  | some .bit5C => execBit5C s
  | some .bit5D => execBit5D s
  | some .bit5E => execBit5E s
  | some .bit5H => execBit5H s
  | some .bit5L => execBit5L s
  | some .bit5MHl => execBit5MHl s
  | some .bit5A => execBit5A s
  | some .bit6B => execBit6B s
  | some .bit6C => execBit6C s
  | some .bit6D => execBit6D s
  | some .bit6E => execBit6E s
  | some .bit6H => execBit6H s
  | some .bit6L => execBit6L s
  | some .bit6MHl => execBit6MHl s
  | some .bit6A => execBit6A s
  | some .bit7B => execBit7B s
  | some .bit7C => execBit7C s
  | some .bit7D => execBit7D s
  | some .bit7E => execBit7E s
  | some .bit7H => execBit7H s
  | some .bit7L => execBit7L s
  | some .bit7MHl => execBit7MHl s
  | some .bit7A => execBit7A s
  | _ => .next (raiseUnimplemented s)

/-- PREFIX CB (rule R108): one cycle that reads the second opcode, then cycle 0 of what it selects in the same step. -/
def execPrefixCb (s : State) : Result :=
  match s.ctx.mstep with
  | 0 => endCycle (readImm8 s)
  | 1 => redispatch (installSecond s)
  | _ => noCycle s

end Sys2Proof.Machine
end

