-- ==== Sys2Proof/Machine/Compare.lean ====
section
/-!
DEFINITION. CP (43_cp.md rules R160 to R163): only F changes.
-/

namespace Sys2Proof.Machine

/-- `Compare(v)` on the machine (rule R163). -/
def compareWith (v : Byte) (s : State) : State := s.setF (cpFlags s.regs.a v s.regs.f)

/-- CP r (rule R160). -/
def cpReg (r : Reg8) (s : State) : Result :=
  match s.ctx.mstep with
  | 0 => complete (compareWith (s.get8 r) s)
  | _ => noCycle s

/-- CP (HL) (rule R161). -/
def cpInd (s : State) : Result :=
  match s.ctx.mstep with
  | 0 => endCycle (readInd .hl s)
  | 1 => complete (compareWith s.ctx.lat8 s)
  | _ => noCycle s

/-- CP d8 (rule R162). -/
def cpImm8 (s : State) : Result :=
  match s.ctx.mstep with
  | 0 => endCycle (readImm8 s)
  | 1 => complete (compareWith s.ctx.lat8 s)
  | _ => noCycle s

/-! ## The instructions -/

/-- CP B (rule R160). -/
def execCpB (s : State) : Result := cpReg .b s
/-- CP C (rule R160). -/
def execCpC (s : State) : Result := cpReg .c s
/-- CP D (rule R160). -/
def execCpD (s : State) : Result := cpReg .d s
/-- CP E (rule R160). -/
def execCpE (s : State) : Result := cpReg .e s
/-- CP H (rule R160). -/
def execCpH (s : State) : Result := cpReg .h s
/-- CP L (rule R160). -/
def execCpL (s : State) : Result := cpReg .l s
/-- CP (HL) (rule R161). -/
def execCpMHl (s : State) : Result := cpInd s
/-- CP A (rule R160). -/
def execCpA (s : State) : Result := cpReg .a s
/-- CP d8 (rule R162). -/
def execCpD8 (s : State) : Result := cpImm8 s

end Sys2Proof.Machine
end

