-- ==== Sys2Proof/Machine/Ime.lean ====
section
/-!
DEFINITION. EI and DI (48_ei_di.md rules R190 to R192): no delay (D13; log 16).
-/

namespace Sys2Proof.Machine

/-- `ime <- b; Fetch()` (rules R190, R191). -/
def setIme (b : Bool) (s : State) : Result :=
  match s.ctx.mstep with
  | 0 => complete (s.setIme b)
  | _ => noCycle s

/-! ## The instructions -/

/-- DI (rule R191). -/
def execDi (s : State) : Result := setIme false s
/-- EI (rule R190). -/
def execEi (s : State) : Result := setIme true s

end Sys2Proof.Machine
end

