-- ==== Sys2Proof/Machine/IncDec.lean ====
section
/-!
DEFINITION. INC and DEC, 8-bit and 16-bit (42_inc_dec.md rules R150 to R155).
-/

namespace Sys2Proof.Machine

/-- INC r (rule R150). -/
def incReg (r : Reg8) (s : State) : Result :=
  match s.ctx.mstep with
  | 0 => complete ((s.setF (incFlags (s.get8 r) s.regs.f)).set8 r (s.get8 r + 1))
  | _ => noCycle s

/-- DEC r (rule R152). -/
def decReg (r : Reg8) (s : State) : Result :=
  match s.ctx.mstep with
  | 0 => complete ((s.setF (decFlags (s.get8 r) s.regs.f)).set8 r (s.get8 r - 1))
  | _ => noCycle s

/-- INC (HL) (rule R151): the flags follow the value read, in the cycle of the write (D31). -/
def incInd (s : State) : Result :=
  match s.ctx.mstep with
  | 0 => endCycle (readInd .hl s)
  | 1 => endCycle (writeInd .hl (s.ctx.lat8 + 1) (s.setF (incFlags s.ctx.lat8 s.regs.f)))
  | 2 => complete s
  | _ => noCycle s

/-- DEC (HL) (rule R153). -/
def decInd (s : State) : Result :=
  match s.ctx.mstep with
  | 0 => endCycle (readInd .hl s)
  | 1 => endCycle (writeInd .hl (s.ctx.lat8 - 1) (s.setF (decFlags s.ctx.lat8 s.regs.f)))
  | 2 => complete s
  | _ => noCycle s

/-- INC rr (rule R154): no flag. -/
def incPair (p : Reg16) (s : State) : Result :=
  match s.ctx.mstep with
  | 0 => endCycle (s.set16 p (s.get16 p + 1))
  | 1 => complete s
  | _ => noCycle s

/-- DEC rr (rule R155): no flag. -/
def decPair (p : Reg16) (s : State) : Result :=
  match s.ctx.mstep with
  | 0 => endCycle (s.set16 p (s.get16 p - 1))
  | 1 => complete s
  | _ => noCycle s

/-! ## The instructions -/

/-- INC BC (rule R154). -/
def execIncBc (s : State) : Result := incPair .bc s
/-- INC B (rule R150). -/
def execIncB (s : State) : Result := incReg .b s
/-- DEC B (rule R152). -/
def execDecB (s : State) : Result := decReg .b s
/-- DEC BC (rule R155). -/
def execDecBc (s : State) : Result := decPair .bc s
/-- INC C (rule R150). -/
def execIncC (s : State) : Result := incReg .c s
/-- DEC C (rule R152). -/
def execDecC (s : State) : Result := decReg .c s
/-- INC DE (rule R154). -/
def execIncDe (s : State) : Result := incPair .de s
/-- INC D (rule R150). -/
def execIncD (s : State) : Result := incReg .d s
/-- DEC D (rule R152). -/
def execDecD (s : State) : Result := decReg .d s
/-- DEC DE (rule R155). -/
def execDecDe (s : State) : Result := decPair .de s
/-- INC E (rule R150). -/
def execIncE (s : State) : Result := incReg .e s
/-- DEC E (rule R152). -/
def execDecE (s : State) : Result := decReg .e s
/-- INC HL (rule R154). -/
def execIncHl (s : State) : Result := incPair .hl s
/-- INC H (rule R150). -/
def execIncH (s : State) : Result := incReg .h s
/-- DEC H (rule R152). -/
def execDecH (s : State) : Result := decReg .h s
/-- DEC HL (rule R155). -/
def execDecHl (s : State) : Result := decPair .hl s
/-- INC L (rule R150). -/
def execIncL (s : State) : Result := incReg .l s
/-- DEC L (rule R152). -/
def execDecL (s : State) : Result := decReg .l s
/-- INC SP (rule R154). -/
def execIncSp (s : State) : Result := incPair .sp s
/-- INC (HL) (rule R151). -/
def execIncMHl (s : State) : Result := incInd s
/-- DEC (HL) (rule R153). -/
def execDecMHl (s : State) : Result := decInd s
/-- DEC SP (rule R155). -/
def execDecSp (s : State) : Result := decPair .sp s
/-- INC A (rule R150). -/
def execIncA (s : State) : Result := incReg .a s
/-- DEC A (rule R152). -/
def execDecA (s : State) : Result := decReg .a s

end Sys2Proof.Machine
end

