-- ==== Sys2Proof/Machine/Jump.lean ====
section
/-!
DEFINITION. The relative jumps JR and JR cc (45_jr.md rules R175 to R177).
-/

namespace Sys2Proof.Machine

/-- PC plus the sign-extended displacement held in `lat8` (rule R175). -/
def branchTaken (s : State) : State := s.setPc (s.regs.pc + sext16 s.ctx.lat8)

/-- JR e8 (rule R175). -/
def jumpRel (s : State) : Result :=
  match s.ctx.mstep with
  | 0 => endCycle (readImm8 s)
  | 1 => endCycle (branchTaken s)
  | 2 => complete s
  | _ => noCycle s

/-- JR cc,e8 (rule R176): the condition is evaluated in cycle 1; not taken, the instruction completes there. -/
def jumpRelIf (cc : Cond) (s : State) : Result :=
  match s.ctx.mstep with
  | 0 => endCycle (readImm8 s)
  | 1 => if condHolds cc s.regs.f then endCycle (branchTaken s) else complete s
  | 2 => complete s
  | _ => noCycle s

/-! ## The instructions -/

/-- JR e8 (rule R175). -/
def execJr (s : State) : Result := jumpRel s
/-- JR NZ,e8 (rule R176). -/
def execJrNz (s : State) : Result := jumpRelIf .nz s
/-- JR Z,e8 (rule R176). -/
def execJrZ (s : State) : Result := jumpRelIf .z s
/-- JR NC,e8 (rule R176). -/
def execJrNc (s : State) : Result := jumpRelIf .nc s
/-- JR C,e8 (rule R176). -/
def execJrC (s : State) : Result := jumpRelIf .c s

end Sys2Proof.Machine
end

