-- ==== Sys2Proof/Machine/Load.lean ====
section
/-!
DEFINITION. The 8-bit loads (41_ld.md): the listings of rules R121 to R138 and R140, one cycle a line, over the operand kinds,
and one meaning per opcode. No load touches F (rule R120).
-/

namespace Sys2Proof.Machine

/-- LD r,r' (rule R121). -/
def ldRegReg (dst src : Reg8) (s : State) : Result :=
  match s.ctx.mstep with
  | 0 => complete (s.set8 dst (s.get8 src))
  | _ => noCycle s

/-- LD r,(HL) and LD A,(BC), (DE), (C), (HL+), (HL-) (rules R122, R126, R127, R134, R137, R138). -/
def ldRegInd (dst : Reg8) (k : Ind) (s : State) : Result :=
  match s.ctx.mstep with
  | 0 => endCycle (readInd k s)
  | 1 => complete (s.set8 dst s.ctx.lat8)
  | _ => noCycle s

/-- LD (HL),r and LD (BC), (DE), (C), (HL+), (HL-),A (rules R123, R128, R129, R133, R135, R136). -/
def ldIndReg (k : Ind) (src : Reg8) (s : State) : Result :=
  match s.ctx.mstep with
  | 0 => endCycle (writeInd k (s.get8 src) s)
  | 1 => complete s
  | _ => noCycle s

/-- LD r,d8 (rule R124). -/
def ldRegImm8 (dst : Reg8) (s : State) : Result :=
  match s.ctx.mstep with
  | 0 => endCycle (readImm8 s)
  | 1 => complete (s.set8 dst s.ctx.lat8)
  | _ => noCycle s

/-- LD (HL),d8 (rule R125). -/
def ldIndImm8 (k : Ind) (s : State) : Result :=
  match s.ctx.mstep with
  | 0 => endCycle (readImm8 s)
  | 1 => endCycle (writeInd k s.ctx.lat8 s)
  | 2 => complete s
  | _ => noCycle s

/-- LD A,(a16) (rule R130). -/
def ldADir16 (s : State) : Result :=
  match s.ctx.mstep with
  | 0 => endCycle (readImm16Lo s)
  | 1 => endCycle (readImm16Hi s)
  | 2 => endCycle (s.setLat8 (busRead s (dir16Addr s)))
  | 3 => complete (s.set8 .a s.ctx.lat8)
  | _ => noCycle s

/-- LDH (a8),A (rule R131). -/
def ldDir8A (s : State) : Result :=
  match s.ctx.mstep with
  | 0 => endCycle (readImm8 s)
  | 1 => endCycle (busWrite s (dir8Addr s) (s.get8 .a))
  | 2 => complete s
  | _ => noCycle s

/-- LDH A,(a8) (rule R132): the address is formed from the old `lat8`. -/
def ldADir8 (s : State) : Result :=
  match s.ctx.mstep with
  | 0 => endCycle (readImm8 s)
  | 1 => endCycle (s.setLat8 (busRead s (dir8Addr s)))
  | 2 => complete (s.set8 .a s.ctx.lat8)
  | _ => noCycle s

/-- LD (a16),A (rule R140). -/
def ldDir16A (s : State) : Result :=
  match s.ctx.mstep with
  | 0 => endCycle (readImm16Lo s)
  | 1 => endCycle (readImm16Hi s)
  | 2 => endCycle (busWrite s (dir16Addr s) (s.get8 .a))
  | 3 => complete s
  | _ => noCycle s

/-! ## The instructions -/

/-- LD (BC),A (rule R128). -/
def execLdMBcA (s : State) : Result := ldIndReg .bc .a s
/-- LD B,d8 (rule R124). -/
def execLdBD8 (s : State) : Result := ldRegImm8 .b s
/-- LD A,(BC) (rule R126). -/
def execLdAMBc (s : State) : Result := ldRegInd .a .bc s
/-- LD C,d8 (rule R124). -/
def execLdCD8 (s : State) : Result := ldRegImm8 .c s
/-- LD (DE),A (rule R129). -/
def execLdMDeA (s : State) : Result := ldIndReg .de .a s
/-- LD D,d8 (rule R124). -/
def execLdDD8 (s : State) : Result := ldRegImm8 .d s
/-- LD A,(DE) (rule R127). -/
def execLdAMDe (s : State) : Result := ldRegInd .a .de s
/-- LD E,d8 (rule R124). -/
def execLdED8 (s : State) : Result := ldRegImm8 .e s
/-- LD (HL+),A (rule R135). -/
def execLdMHlIncA (s : State) : Result := ldIndReg .hlInc .a s
/-- LD H,d8 (rule R124). -/
def execLdHD8 (s : State) : Result := ldRegImm8 .h s
/-- LD A,(HL+) (rule R137). -/
def execLdAMHlInc (s : State) : Result := ldRegInd .a .hlInc s
/-- LD L,d8 (rule R124). -/
def execLdLD8 (s : State) : Result := ldRegImm8 .l s
/-- LD (HL-),A (rule R136). -/
def execLdMHlDecA (s : State) : Result := ldIndReg .hlDec .a s
/-- LD (HL),d8 (rule R125). -/
def execLdMHlD8 (s : State) : Result := ldIndImm8 .hl s
/-- LD A,(HL-) (rule R138). -/
def execLdAMHlDec (s : State) : Result := ldRegInd .a .hlDec s
/-- LD A,d8 (rule R124). -/
def execLdAD8 (s : State) : Result := ldRegImm8 .a s
/-- LD B,B (rule R121). -/
def execLdBB (s : State) : Result := ldRegReg .b .b s
/-- LD B,C (rule R121). -/
def execLdBC (s : State) : Result := ldRegReg .b .c s
/-- LD B,D (rule R121). -/
def execLdBD (s : State) : Result := ldRegReg .b .d s
/-- LD B,E (rule R121). -/
def execLdBE (s : State) : Result := ldRegReg .b .e s
/-- LD B,H (rule R121). -/
def execLdBH (s : State) : Result := ldRegReg .b .h s
/-- LD B,L (rule R121). -/
def execLdBL (s : State) : Result := ldRegReg .b .l s
/-- LD B,(HL) (rule R122). -/
def execLdBMHl (s : State) : Result := ldRegInd .b .hl s
/-- LD B,A (rule R121). -/
def execLdBA (s : State) : Result := ldRegReg .b .a s
/-- LD C,B (rule R121). -/
def execLdCB (s : State) : Result := ldRegReg .c .b s
/-- LD C,C (rule R121). -/
def execLdCC (s : State) : Result := ldRegReg .c .c s
/-- LD C,D (rule R121). -/
def execLdCD (s : State) : Result := ldRegReg .c .d s
/-- LD C,E (rule R121). -/
def execLdCE (s : State) : Result := ldRegReg .c .e s
/-- LD C,H (rule R121). -/
def execLdCH (s : State) : Result := ldRegReg .c .h s
/-- LD C,L (rule R121). -/
def execLdCL (s : State) : Result := ldRegReg .c .l s
/-- LD C,(HL) (rule R122). -/
def execLdCMHl (s : State) : Result := ldRegInd .c .hl s
/-- LD C,A (rule R121). -/
def execLdCA (s : State) : Result := ldRegReg .c .a s
/-- LD D,B (rule R121). -/
def execLdDB (s : State) : Result := ldRegReg .d .b s
/-- LD D,C (rule R121). -/
def execLdDC (s : State) : Result := ldRegReg .d .c s
/-- LD D,D (rule R121). -/
def execLdDD (s : State) : Result := ldRegReg .d .d s
/-- LD D,E (rule R121). -/
def execLdDE (s : State) : Result := ldRegReg .d .e s
/-- LD D,H (rule R121). -/
def execLdDH (s : State) : Result := ldRegReg .d .h s
/-- LD D,L (rule R121). -/
def execLdDL (s : State) : Result := ldRegReg .d .l s
/-- LD D,(HL) (rule R122). -/
def execLdDMHl (s : State) : Result := ldRegInd .d .hl s
/-- LD D,A (rule R121). -/
def execLdDA (s : State) : Result := ldRegReg .d .a s
/-- LD E,B (rule R121). -/
def execLdEB (s : State) : Result := ldRegReg .e .b s
/-- LD E,C (rule R121). -/
def execLdEC (s : State) : Result := ldRegReg .e .c s
/-- LD E,D (rule R121). -/
def execLdED (s : State) : Result := ldRegReg .e .d s
/-- LD E,E (rule R121). -/
def execLdEE (s : State) : Result := ldRegReg .e .e s
/-- LD E,H (rule R121). -/
def execLdEH (s : State) : Result := ldRegReg .e .h s
/-- LD E,L (rule R121). -/
def execLdEL (s : State) : Result := ldRegReg .e .l s
/-- LD E,(HL) (rule R122). -/
def execLdEMHl (s : State) : Result := ldRegInd .e .hl s
/-- LD E,A (rule R121). -/
def execLdEA (s : State) : Result := ldRegReg .e .a s
/-- LD H,B (rule R121). -/
def execLdHB (s : State) : Result := ldRegReg .h .b s
/-- LD H,C (rule R121). -/
def execLdHC (s : State) : Result := ldRegReg .h .c s
/-- LD H,D (rule R121). -/
def execLdHD (s : State) : Result := ldRegReg .h .d s
/-- LD H,E (rule R121). -/
def execLdHE (s : State) : Result := ldRegReg .h .e s
/-- LD H,H (rule R121). -/
def execLdHH (s : State) : Result := ldRegReg .h .h s
/-- LD H,L (rule R121). -/
def execLdHL (s : State) : Result := ldRegReg .h .l s
/-- LD H,(HL) (rule R122). -/
def execLdHMHl (s : State) : Result := ldRegInd .h .hl s
/-- LD H,A (rule R121). -/
def execLdHA (s : State) : Result := ldRegReg .h .a s
/-- LD L,B (rule R121). -/
def execLdLB (s : State) : Result := ldRegReg .l .b s
/-- LD L,C (rule R121). -/
def execLdLC (s : State) : Result := ldRegReg .l .c s
/-- LD L,D (rule R121). -/
def execLdLD (s : State) : Result := ldRegReg .l .d s
/-- LD L,E (rule R121). -/
def execLdLE (s : State) : Result := ldRegReg .l .e s
/-- LD L,H (rule R121). -/
def execLdLH (s : State) : Result := ldRegReg .l .h s
/-- LD L,L (rule R121). -/
def execLdLL (s : State) : Result := ldRegReg .l .l s
/-- LD L,(HL) (rule R122). -/
def execLdLMHl (s : State) : Result := ldRegInd .l .hl s
/-- LD L,A (rule R121). -/
def execLdLA (s : State) : Result := ldRegReg .l .a s
/-- LD (HL),B (rule R123). -/
def execLdMHlB (s : State) : Result := ldIndReg .hl .b s
/-- LD (HL),C (rule R123). -/
def execLdMHlC (s : State) : Result := ldIndReg .hl .c s
/-- LD (HL),D (rule R123). -/
def execLdMHlD (s : State) : Result := ldIndReg .hl .d s
/-- LD (HL),E (rule R123). -/
def execLdMHlE (s : State) : Result := ldIndReg .hl .e s
/-- LD (HL),H (rule R123). -/
def execLdMHlH (s : State) : Result := ldIndReg .hl .h s
/-- LD (HL),L (rule R123). -/
def execLdMHlL (s : State) : Result := ldIndReg .hl .l s
/-- LD (HL),A (rule R123). -/
def execLdMHlA (s : State) : Result := ldIndReg .hl .a s
/-- LD A,B (rule R121). -/
def execLdAB (s : State) : Result := ldRegReg .a .b s
/-- LD A,C (rule R121). -/
def execLdAC (s : State) : Result := ldRegReg .a .c s
/-- LD A,D (rule R121). -/
def execLdAD (s : State) : Result := ldRegReg .a .d s
/-- LD A,E (rule R121). -/
def execLdAE (s : State) : Result := ldRegReg .a .e s
/-- LD A,H (rule R121). -/
def execLdAH (s : State) : Result := ldRegReg .a .h s
/-- LD A,L (rule R121). -/
def execLdAL (s : State) : Result := ldRegReg .a .l s
/-- LD A,(HL) (rule R122). -/
def execLdAMHl (s : State) : Result := ldRegInd .a .hl s
/-- LD A,A (rule R121). -/
def execLdAA (s : State) : Result := ldRegReg .a .a s
/-- LDH (a8),A (rule R131). -/
def execLdhMA8A (s : State) : Result := ldDir8A s
/-- LD (C),A (rule R133). -/
def execLdMCA (s : State) : Result := ldIndReg .highC .a s
/-- LD (a16),A (rule R140). -/
def execLdMA16A (s : State) : Result := ldDir16A s
/-- LDH A,(a8) (rule R132). -/
def execLdhAMA8 (s : State) : Result := ldADir8 s
/-- LD A,(C) (rule R134). -/
def execLdAMC (s : State) : Result := ldRegInd .a .highC s
/-- LD A,(a16) (rule R130). -/
def execLdAMA16 (s : State) : Result := ldADir16 s

end Sys2Proof.Machine
end

