-- ==== Sys2Proof/Machine/Load16.lean ====
section
/-!
DEFINITION. The 16-bit loads (41_ld.md rules R139, R141, R142). No load touches F (rule R120).
-/

namespace Sys2Proof.Machine

/-- LD (a16),SP (rule R139): the low byte at the lower address. -/
def ldDir16Sp (s : State) : Result :=
  match s.ctx.mstep with
  | 0 => endCycle (readImm16Lo s)
  | 1 => endCycle (readImm16Hi s)
  | 2 => endCycle (busWrite s (dir16Addr s) (loByte s.regs.sp))
  | 3 => endCycle (busWrite s (dir16Addr s + 1) (hiByte s.regs.sp))
  | 4 => complete s
  | _ => noCycle s

/-- LD rr,d16 (rule R141). -/
def ldPairImm16 (p : Reg16) (s : State) : Result :=
  match s.ctx.mstep with
  | 0 => endCycle (readImm16Lo s)
  | 1 => endCycle (readImm16Hi s)
  | 2 => complete (s.set16 p s.ctx.lat16)
  | _ => noCycle s

/-- LD SP,HL (rule R142): one cycle by the source's formula (D28). -/
def ldSpHl (s : State) : Result :=
  match s.ctx.mstep with
  | 0 => complete (s.set16 .sp (s.get16 .hl))
  | _ => noCycle s

/-! ## The instructions -/

/-- LD BC,d16 (rule R141). -/
def execLdBcD16 (s : State) : Result := ldPairImm16 .bc s
/-- LD (a16),SP (rule R139). -/
def execLdMA16Sp (s : State) : Result := ldDir16Sp s
/-- LD DE,d16 (rule R141). -/
def execLdDeD16 (s : State) : Result := ldPairImm16 .de s
/-- LD HL,d16 (rule R141). -/
def execLdHlD16 (s : State) : Result := ldPairImm16 .hl s
/-- LD SP,d16 (rule R141). -/
def execLdSpD16 (s : State) : Result := ldPairImm16 .sp s
/-- LD SP,HL (rule R142). -/
def execLdSpHl (s : State) : Result := ldSpHl s

end Sys2Proof.Machine
end

