-- ==== Sys2Proof/Machine/Stack.lean ====
section
/-!
DEFINITION. PUSH and POP (46_push_pop.md rules R180 to R183).
-/

namespace Sys2Proof.Machine

/-- PUSH rr (rule R180): an internal cycle, the high byte, the low byte, the fetch. -/
def pushPair (p : Reg16) (s : State) : Result :=
  match s.ctx.mstep with
  | 0 => endCycle s
  | 1 => endCycle (pushByte s (hiByte (s.get16 p)))
  | 2 => endCycle (pushByte s (loByte (s.get16 p)))
  | 3 => complete s
  | _ => noCycle s

/-- POP rr (rule R181): the low byte, the high byte, then the pair is written with the fetch. -/
def popPair (p : Reg16) (s : State) : Result :=
  match s.ctx.mstep with
  | 0 => endCycle (popLow s)
  | 1 => endCycle (popHigh s)
  | 2 => complete (s.set16 p s.ctx.lat16)
  | _ => noCycle s

/-! ## The instructions -/

/-- POP BC (rule R181). -/
def execPopBc (s : State) : Result := popPair .bc s
/-- PUSH BC (rule R180). -/
def execPushBc (s : State) : Result := pushPair .bc s
/-- POP DE (rule R181). -/
def execPopDe (s : State) : Result := popPair .de s
/-- PUSH DE (rule R180). -/
def execPushDe (s : State) : Result := pushPair .de s
/-- POP HL (rule R181). -/
def execPopHl (s : State) : Result := popPair .hl s
/-- PUSH HL (rule R180). -/
def execPushHl (s : State) : Result := pushPair .hl s
/-- POP AF (rule R181). -/
def execPopAf (s : State) : Result := popPair .af s
/-- PUSH AF (rule R180). -/
def execPushAf (s : State) : Result := pushPair .af s

end Sys2Proof.Machine
end

