-- ==== Sys2Proof/Machine/Dispatch.lean ====
section
/-!
DEFINITION. One arm per instruction: each calls its meaning.
-/

namespace Sys2Proof.Machine

/-- One cycle of an instruction: the line of its listing that `mstep` selects (rules R91, R94). -/
def exec (i : Instr) (s : State) : Host.Outcome State Fault Refusal :=
  match i with
  | .ldBcD16 => Sys2Proof.Machine.execLdBcD16 s
  | .ldMBcA => Sys2Proof.Machine.execLdMBcA s
  | .incBc => Sys2Proof.Machine.execIncBc s
  | .incB => Sys2Proof.Machine.execIncB s
  | .decB => Sys2Proof.Machine.execDecB s
  | .ldBD8 => Sys2Proof.Machine.execLdBD8 s
  | .ldMA16Sp => Sys2Proof.Machine.execLdMA16Sp s
  | .ldAMBc => Sys2Proof.Machine.execLdAMBc s
  | .decBc => Sys2Proof.Machine.execDecBc s
  | .incC => Sys2Proof.Machine.execIncC s
  | .decC => Sys2Proof.Machine.execDecC s
  | .ldCD8 => Sys2Proof.Machine.execLdCD8 s
  | .ldDeD16 => Sys2Proof.Machine.execLdDeD16 s
  | .ldMDeA => Sys2Proof.Machine.execLdMDeA s
  | .incDe => Sys2Proof.Machine.execIncDe s
  | .incD => Sys2Proof.Machine.execIncD s
  | .decD => Sys2Proof.Machine.execDecD s
  | .ldDD8 => Sys2Proof.Machine.execLdDD8 s
  | .jr => Sys2Proof.Machine.execJr s
  | .ldAMDe => Sys2Proof.Machine.execLdAMDe s
  | .decDe => Sys2Proof.Machine.execDecDe s
  | .incE => Sys2Proof.Machine.execIncE s
  | .decE => Sys2Proof.Machine.execDecE s
  | .ldED8 => Sys2Proof.Machine.execLdED8 s
  | .jrNz => Sys2Proof.Machine.execJrNz s
  | .ldHlD16 => Sys2Proof.Machine.execLdHlD16 s
  | .ldMHlIncA => Sys2Proof.Machine.execLdMHlIncA s
  | .incHl => Sys2Proof.Machine.execIncHl s
  | .incH => Sys2Proof.Machine.execIncH s
  | .decH => Sys2Proof.Machine.execDecH s
  | .ldHD8 => Sys2Proof.Machine.execLdHD8 s
  | .jrZ => Sys2Proof.Machine.execJrZ s
  | .ldAMHlInc => Sys2Proof.Machine.execLdAMHlInc s
  | .decHl => Sys2Proof.Machine.execDecHl s
  | .incL => Sys2Proof.Machine.execIncL s
  | .decL => Sys2Proof.Machine.execDecL s
  | .ldLD8 => Sys2Proof.Machine.execLdLD8 s
  | .jrNc => Sys2Proof.Machine.execJrNc s
  | .ldSpD16 => Sys2Proof.Machine.execLdSpD16 s
  | .ldMHlDecA => Sys2Proof.Machine.execLdMHlDecA s
  | .incSp => Sys2Proof.Machine.execIncSp s
  | .incMHl => Sys2Proof.Machine.execIncMHl s
  | .decMHl => Sys2Proof.Machine.execDecMHl s
  | .ldMHlD8 => Sys2Proof.Machine.execLdMHlD8 s
  | .jrC => Sys2Proof.Machine.execJrC s
  | .ldAMHlDec => Sys2Proof.Machine.execLdAMHlDec s
  | .decSp => Sys2Proof.Machine.execDecSp s
  | .incA => Sys2Proof.Machine.execIncA s
  | .decA => Sys2Proof.Machine.execDecA s
  | .ldAD8 => Sys2Proof.Machine.execLdAD8 s
  | .ldBB => Sys2Proof.Machine.execLdBB s
  | .ldBC => Sys2Proof.Machine.execLdBC s
  | .ldBD => Sys2Proof.Machine.execLdBD s
  | .ldBE => Sys2Proof.Machine.execLdBE s
  | .ldBH => Sys2Proof.Machine.execLdBH s
  | .ldBL => Sys2Proof.Machine.execLdBL s
  | .ldBMHl => Sys2Proof.Machine.execLdBMHl s
  | .ldBA => Sys2Proof.Machine.execLdBA s
  | .ldCB => Sys2Proof.Machine.execLdCB s
  | .ldCC => Sys2Proof.Machine.execLdCC s
  | .ldCD => Sys2Proof.Machine.execLdCD s
  | .ldCE => Sys2Proof.Machine.execLdCE s
  | .ldCH => Sys2Proof.Machine.execLdCH s
  | .ldCL => Sys2Proof.Machine.execLdCL s
  | .ldCMHl => Sys2Proof.Machine.execLdCMHl s
  | .ldCA => Sys2Proof.Machine.execLdCA s
  | .ldDB => Sys2Proof.Machine.execLdDB s
  | .ldDC => Sys2Proof.Machine.execLdDC s
  | .ldDD => Sys2Proof.Machine.execLdDD s
  | .ldDE => Sys2Proof.Machine.execLdDE s
  | .ldDH => Sys2Proof.Machine.execLdDH s
  | .ldDL => Sys2Proof.Machine.execLdDL s
  | .ldDMHl => Sys2Proof.Machine.execLdDMHl s
  | .ldDA => Sys2Proof.Machine.execLdDA s
  | .ldEB => Sys2Proof.Machine.execLdEB s
  | .ldEC => Sys2Proof.Machine.execLdEC s
  | .ldED => Sys2Proof.Machine.execLdED s
  | .ldEE => Sys2Proof.Machine.execLdEE s
  | .ldEH => Sys2Proof.Machine.execLdEH s
  | .ldEL => Sys2Proof.Machine.execLdEL s
  | .ldEMHl => Sys2Proof.Machine.execLdEMHl s
  | .ldEA => Sys2Proof.Machine.execLdEA s
  | .ldHB => Sys2Proof.Machine.execLdHB s
  | .ldHC => Sys2Proof.Machine.execLdHC s
  | .ldHD => Sys2Proof.Machine.execLdHD s
  | .ldHE => Sys2Proof.Machine.execLdHE s
  | .ldHH => Sys2Proof.Machine.execLdHH s
  | .ldHL => Sys2Proof.Machine.execLdHL s
  | .ldHMHl => Sys2Proof.Machine.execLdHMHl s
  | .ldHA => Sys2Proof.Machine.execLdHA s
  | .ldLB => Sys2Proof.Machine.execLdLB s
  | .ldLC => Sys2Proof.Machine.execLdLC s
  | .ldLD => Sys2Proof.Machine.execLdLD s
  | .ldLE => Sys2Proof.Machine.execLdLE s
  | .ldLH => Sys2Proof.Machine.execLdLH s
  | .ldLL => Sys2Proof.Machine.execLdLL s
  | .ldLMHl => Sys2Proof.Machine.execLdLMHl s
  | .ldLA => Sys2Proof.Machine.execLdLA s
  | .ldMHlB => Sys2Proof.Machine.execLdMHlB s
  | .ldMHlC => Sys2Proof.Machine.execLdMHlC s
  | .ldMHlD => Sys2Proof.Machine.execLdMHlD s
  | .ldMHlE => Sys2Proof.Machine.execLdMHlE s
  | .ldMHlH => Sys2Proof.Machine.execLdMHlH s
  | .ldMHlL => Sys2Proof.Machine.execLdMHlL s
  | .ldMHlA => Sys2Proof.Machine.execLdMHlA s
  | .ldAB => Sys2Proof.Machine.execLdAB s
  | .ldAC => Sys2Proof.Machine.execLdAC s
  | .ldAD => Sys2Proof.Machine.execLdAD s
  | .ldAE => Sys2Proof.Machine.execLdAE s
  | .ldAH => Sys2Proof.Machine.execLdAH s
  | .ldAL => Sys2Proof.Machine.execLdAL s
  | .ldAMHl => Sys2Proof.Machine.execLdAMHl s
  | .ldAA => Sys2Proof.Machine.execLdAA s
  | .cpB => Sys2Proof.Machine.execCpB s
  | .cpC => Sys2Proof.Machine.execCpC s
  | .cpD => Sys2Proof.Machine.execCpD s
  | .cpE => Sys2Proof.Machine.execCpE s
  | .cpH => Sys2Proof.Machine.execCpH s
  | .cpL => Sys2Proof.Machine.execCpL s
  | .cpMHl => Sys2Proof.Machine.execCpMHl s
  | .cpA => Sys2Proof.Machine.execCpA s
  | .popBc => Sys2Proof.Machine.execPopBc s
  | .pushBc => Sys2Proof.Machine.execPushBc s
  | .ret => Sys2Proof.Machine.execRet s
  | .prefixCb => Sys2Proof.Machine.execPrefixCb s
  | .call => Sys2Proof.Machine.execCall s
  | .popDe => Sys2Proof.Machine.execPopDe s
  | .pushDe => Sys2Proof.Machine.execPushDe s
  | .reti => Sys2Proof.Machine.execReti s
  | .ldhMA8A => Sys2Proof.Machine.execLdhMA8A s
  | .popHl => Sys2Proof.Machine.execPopHl s
  | .ldMCA => Sys2Proof.Machine.execLdMCA s
  | .pushHl => Sys2Proof.Machine.execPushHl s
  | .ldMA16A => Sys2Proof.Machine.execLdMA16A s
  | .ldhAMA8 => Sys2Proof.Machine.execLdhAMA8 s
  | .popAf => Sys2Proof.Machine.execPopAf s
  | .ldAMC => Sys2Proof.Machine.execLdAMC s
  | .di => Sys2Proof.Machine.execDi s
  | .pushAf => Sys2Proof.Machine.execPushAf s
  | .ldSpHl => Sys2Proof.Machine.execLdSpHl s
  | .ldAMA16 => Sys2Proof.Machine.execLdAMA16 s
  | .ei => Sys2Proof.Machine.execEi s
  | .cpD8 => Sys2Proof.Machine.execCpD8 s
  | .rlB => Sys2Proof.Machine.execRlB s
  | .rlC => Sys2Proof.Machine.execRlC s
  | .rlD => Sys2Proof.Machine.execRlD s
  | .rlE => Sys2Proof.Machine.execRlE s
  | .rlH => Sys2Proof.Machine.execRlH s
  | .rlL => Sys2Proof.Machine.execRlL s
  | .rlMHl => Sys2Proof.Machine.execRlMHl s
  | .rlA => Sys2Proof.Machine.execRlA s
  | .bit0B => Sys2Proof.Machine.execBit0B s
  | .bit0C => Sys2Proof.Machine.execBit0C s
  | .bit0D => Sys2Proof.Machine.execBit0D s
  | .bit0E => Sys2Proof.Machine.execBit0E s
  | .bit0H => Sys2Proof.Machine.execBit0H s
  | .bit0L => Sys2Proof.Machine.execBit0L s
  | .bit0MHl => Sys2Proof.Machine.execBit0MHl s
  | .bit0A => Sys2Proof.Machine.execBit0A s
  | .bit1B => Sys2Proof.Machine.execBit1B s
  | .bit1C => Sys2Proof.Machine.execBit1C s
  | .bit1D => Sys2Proof.Machine.execBit1D s
  | .bit1E => Sys2Proof.Machine.execBit1E s
  | .bit1H => Sys2Proof.Machine.execBit1H s
  | .bit1L => Sys2Proof.Machine.execBit1L s
  | .bit1MHl => Sys2Proof.Machine.execBit1MHl s
  | .bit1A => Sys2Proof.Machine.execBit1A s
  | .bit2B => Sys2Proof.Machine.execBit2B s
  | .bit2C => Sys2Proof.Machine.execBit2C s
  | .bit2D => Sys2Proof.Machine.execBit2D s
  | .bit2E => Sys2Proof.Machine.execBit2E s
  | .bit2H => Sys2Proof.Machine.execBit2H s
  | .bit2L => Sys2Proof.Machine.execBit2L s
  | .bit2MHl => Sys2Proof.Machine.execBit2MHl s
  | .bit2A => Sys2Proof.Machine.execBit2A s
  | .bit3B => Sys2Proof.Machine.execBit3B s
  | .bit3C => Sys2Proof.Machine.execBit3C s
  | .bit3D => Sys2Proof.Machine.execBit3D s
  | .bit3E => Sys2Proof.Machine.execBit3E s
  | .bit3H => Sys2Proof.Machine.execBit3H s
  | .bit3L => Sys2Proof.Machine.execBit3L s
  | .bit3MHl => Sys2Proof.Machine.execBit3MHl s
  | .bit3A => Sys2Proof.Machine.execBit3A s
  | .bit4B => Sys2Proof.Machine.execBit4B s
  | .bit4C => Sys2Proof.Machine.execBit4C s
  | .bit4D => Sys2Proof.Machine.execBit4D s
  | .bit4E => Sys2Proof.Machine.execBit4E s
  | .bit4H => Sys2Proof.Machine.execBit4H s
  | .bit4L => Sys2Proof.Machine.execBit4L s
  | .bit4MHl => Sys2Proof.Machine.execBit4MHl s
  | .bit4A => Sys2Proof.Machine.execBit4A s
  | .bit5B => Sys2Proof.Machine.execBit5B s
  | .bit5C => Sys2Proof.Machine.execBit5C s
  | .bit5D => Sys2Proof.Machine.execBit5D s
  | .bit5E => Sys2Proof.Machine.execBit5E s
  | .bit5H => Sys2Proof.Machine.execBit5H s
  | .bit5L => Sys2Proof.Machine.execBit5L s
  | .bit5MHl => Sys2Proof.Machine.execBit5MHl s
  | .bit5A => Sys2Proof.Machine.execBit5A s
  | .bit6B => Sys2Proof.Machine.execBit6B s
  | .bit6C => Sys2Proof.Machine.execBit6C s
  | .bit6D => Sys2Proof.Machine.execBit6D s
  | .bit6E => Sys2Proof.Machine.execBit6E s
  | .bit6H => Sys2Proof.Machine.execBit6H s
  | .bit6L => Sys2Proof.Machine.execBit6L s
  | .bit6MHl => Sys2Proof.Machine.execBit6MHl s
  | .bit6A => Sys2Proof.Machine.execBit6A s
  | .bit7B => Sys2Proof.Machine.execBit7B s
  | .bit7C => Sys2Proof.Machine.execBit7C s
  | .bit7D => Sys2Proof.Machine.execBit7D s
  | .bit7E => Sys2Proof.Machine.execBit7E s
  | .bit7H => Sys2Proof.Machine.execBit7H s
  | .bit7L => Sys2Proof.Machine.execBit7L s
  | .bit7MHl => Sys2Proof.Machine.execBit7MHl s
  | .bit7A => Sys2Proof.Machine.execBit7A s

end Sys2Proof.Machine
end

