-- ==== Sys2Proof/Machine/Render.lean ====
section
/-!
DEFINITION. Rendering the background of one scanline (60_exceptions.md rules R230 and R231). All reads of `vram` bypass the
bus and its lock.
-/

namespace Sys2Proof.Machine

/-- `SHADE`: the grayscale byte of a 2-bit shade (rule R231). -/
def shadeByte (shade : BitVec 2) : Byte :=
  match shade.toNat with
  | 0 => 0xFF
  | 1 => 0xAA
  | 2 => 0x55
  | _ => 0x00

/-- Base of the background tile map, LCDC bit 3 (rule R231). -/
def Ppu.mapBase (p : Ppu) : Nat := if p.lcdc.getLsbD 3 then 0x1C00 else 0x1800

/-- Tile number of an index, LCDC bit 4: unsigned, or a signed offset from tile 0x100 (rule R231). -/
def Ppu.tileNumber (p : Ppu) (idx : Byte) : Nat :=
  if p.lcdc.getLsbD 4 then idx.toNat else (0x100 + idx.toInt).toNat

/-- The tile index of the background pixel (px, py) (rule R231). -/
def Ppu.tileIndex (p : Ppu) (px py : Nat) : Byte :=
  p.vram.read (p.mapBase + py / 8 * 32 + px / 8)

/-- The 2-bit colour index of the background pixel (px, py) (rule R231): low bitplane first, bit 7 leftmost. -/
def Ppu.colour (p : Ppu) (px py : Nat) : BitVec 2 :=
  let row := p.tileNumber (p.tileIndex px py) * 16 + py % 8 * 2
  let bit := 7 - px % 8
  BitVec.ofBool ((p.vram.read (row + 1)).getLsbD bit) ++ BitVec.ofBool ((p.vram.read row).getLsbD bit)

/-- `(bgp >> (2 * colour)) & 3` (rules R34, R231). -/
def Ppu.shade (p : Ppu) (colour : BitVec 2) : BitVec 2 := p.bgp.extractLsb' (2 * colour.toNat) 2

/-- The byte of column `x` of line `y` (rule R231). -/
def Ppu.pixel (p : Ppu) (y x : Nat) : Byte :=
  shadeByte (p.shade (p.colour ((x + p.scx.toNat) % 256) ((y + p.scy.toNat) % 256)))

/-- Write the first `n` pixels of line `y` (rule R37: index y * 160 + x). -/
def Ppu.renderPixels (p : Ppu) (y : Nat) : Nat → Memory
  | 0 => p.fb
  | n + 1 => (p.renderPixels y n).write (y * 160 + n) (p.pixel y n)

/-- The frame buffer after the line `ly` (rule R230): written when LCDC bit 0 is set, else left. -/
def renderScanline (p : Ppu) : Memory :=
  if p.lcdc.getLsbD 0 then p.renderPixels p.ly.toNat 160 else p.fb

end Sys2Proof.Machine
end

