-- ==== Sys2Proof/Machine/Ppu.lean ====
section
/-!
DEFINITION. The PPU step (60_exceptions.md rules R224 to R229 and R236) and the interrupt controller (rules R208 to R212):
raising, the external input, the pending mask. The PPU step is a function of the PPU alone that answers the next
PPU and the mask of interrupt flags it raises.
-/

namespace Sys2Proof.Machine

/-! ## Interrupt flags -/

/-- The mask of source `k` (rule R208). -/
def irqMask (k : Nat) : Byte := 1#8 <<< k

/-- `IrqRaise` for every source in a mask (rules R204, R208): an OR. -/
def raiseIrq (s : State) (mask : Byte) : State :=
  { s with irq := { s.irq with flags := s.irq.flags ||| mask } }

/-- The pending mask, an output of the block that nothing inside reads (rules R210, R212). -/
def State.pending (s : State) : Byte := s.irq.flags &&& s.irq.enable &&& 0x1F

/-- The external interrupt input, sampled after the PPU step (rule R209); an exhausted list is the default 0. -/
def sampleExtIrq (s : State) : State :=
  match s.extIrq with
  | [] => s
  | v :: rest => { raiseIrq s (v.zeroExtend 8) with extIrq := rest }

/-! ## The mode machine -/

/-- Ticks a mode lasts (rule R224); VBlank's is per line. -/
def PpuMode.budget : PpuMode → Nat
  | .oamScan => 20 | .drawing => 43 | .hblank => 51 | .vblank => 114

/-- Enter a mode with its full budget. -/
def Ppu.enter (p : Ppu) (m : PpuMode) : Ppu := { p with mode := m, cnt := m.budget }

/-- A STAT interrupt if bit `sel` of `stat_cfg` selects it (rule R236). -/
def Ppu.statIrq (p : Ppu) (sel : Nat) : Byte := if p.statCfg.getLsbD sel then irqMask 1 else 0

/-- `ly` takes a new value and `lyc_eq` is recomputed (rule R229). -/
def Ppu.setLy (p : Ppu) (ly : Byte) : Ppu := { p with ly := ly, lycEq := ly == p.lyc }

/-- The STAT interrupt of a recomputation that found equality (rules R229, R236). -/
def Ppu.lycIrq (p : Ppu) : Byte := if p.lycEq then p.statIrq 3 else 0

/-- Out of OamScan (rule R225): no interrupt. -/
def Ppu.leaveOamScan (p : Ppu) : Ppu × Byte := (p.enter .drawing, 0)

/-- Out of Drawing (rule R226): the line is rendered, then HBlank is entered. -/
def Ppu.leaveDrawing (p : Ppu) : Ppu × Byte :=
  ({ p with fb := renderScanline p }.enter .hblank, p.statIrq 0)

/-- Out of HBlank (rule R227): the next line, or VBlank at line 144. -/
def Ppu.leaveHBlank (p : Ppu) : Ppu × Byte :=
  let q := p.setLy (p.ly + 1)
  if q.ly = 144#8 then (q.enter .vblank, irqMask 0 ||| q.statIrq 1 ||| q.lycIrq)
  else (q.enter .oamScan, q.statIrq 2 ||| q.lycIrq)

/-- The end of a VBlank line (rule R228): the next line, or the wrap that completes the frame. -/
def Ppu.leaveVBlankLine (p : Ppu) : Ppu × Byte :=
  if p.ly = 153#8 then
    let q := p.setLy 0
    ({ q.enter .oamScan with frameComplete := true }, q.statIrq 2 ||| q.lycIrq)
  else
    let q := p.setLy (p.ly + 1)
    (q.enter .vblank, q.lycIrq)

/-- The transition at the end of a mode's budget. -/
def Ppu.transition (p : Ppu) : Ppu × Byte :=
  match p.mode with
  | .oamScan => p.leaveOamScan
  | .drawing => p.leaveDrawing
  | .hblank => p.leaveHBlank
  | .vblank => p.leaveVBlankLine

/-- LCDC bit 7 (rule R29): the PPU step runs. -/
def Ppu.enabled (p : Ppu) : Bool := p.lcdc.getLsbD 7

/-- One PPU step (rule R224): the next PPU and the interrupt flags it raises. The counter is decremented first and
tested after (D26). -/
def Ppu.step (p : Ppu) : Ppu × Byte :=
  let q := { p with frameComplete := false }
  if q.enabled then
    let r := { q with cnt := q.cnt - 1 }
    if r.cnt = 0 then r.transition else (r, 0)
  else (q, 0)

/-- The PPU step of a tick; PPU_IRQ can switch its interrupts off (rule R236). -/
def ppuStep (s : State) : State :=
  let r := s.ppu.step
  raiseIrq { s with ppu := r.1 } (if Params.ppuIrq then r.2 else 0)

/-- What the driver hands to the display in the tick that ended in this state (rule R235): the frame buffer when the PPU
step completed a frame. A faulted machine delivers nothing (rule R201; log 11). -/
def State.drawnFrame (s : State) : Option Memory :=
  if s.ppu.frameComplete ∧ s.phase ≠ .faulted then some s.ppu.fb else none

end Sys2Proof.Machine
end

