-- ==== Sys2Proof/Machine/Engine.lean ====
section
/-!
DEFINITION. The execution engine and the driver: the CPU step (40_engine_operands.md rules R90, R91), the tick (00_scope.md rule
R5), and how an instruction is put where the next step runs it (log 12).
-/

namespace Sys2Proof.Machine

/-- `Dispatch()` (rule R91): decode the Instruction Context and run the cycle `mstep` selects, or raise the fault. -/
def dispatch (s : State) : Result :=
  match decodeOpcode s.ctx.cb s.ctx.opcode with
  | none => .next (raiseUnimplemented s)
  | some i => exec i s

/-- The first step after power-on: a bare fetch (rules R90, R261). -/
def bootFetch (s : State) : State := { fetch s with phase := .run }

/-- One CPU step (rule R90). -/
def cpuStep (s : State) : Result :=
  match s.phase with
  | .faulted => .next s
  | .boot => .next (bootFetch s)
  | .run => dispatch s

/-- What a tick does after the CPU step: the PPU step, then the external interrupt input; nothing on a machine that has
faulted (rules R5, R201). -/
def restOfTick (s : State) : State :=
  match s.phase with
  | .faulted => s
  | .boot | .run => sampleExtIrq (ppuStep s)

/-- One tick (rule R5). -/
def tick (s : State) : Result :=
  match cpuStep s with
  | .next t => .next (restOfTick t)
  | .fault r => .fault r
  | .refused r => .refused r

/-- The machine with three bytes placed at PC and the first of them fetched, so that the next step runs cycle 0 of its
instruction; of a second-table instruction the prefix's own cycle is done too, so that the next step redispatches into
it and runs its cycle 0 (log 12). -/
def withFetchBytes (s : State) (b0 b1 b2 : Byte) : State :=
  let pc := s.regs.pc
  let t := placeByte (placeByte (placeByte s pc b0) (pc + 1) b1) (pc + 2) b2
  let u :=
    { t with
      ctx := { t.ctx with opcode := b0, cb := false, mstep := 0 }
      regs := { t.regs with pc := pc + 1 }
      phase := .run
      fault := none }
  if decodeOpcode false b0 = some .prefixCb ∧ decodeOpcode true b1 ≠ none then
    { u with ctx := { u.ctx with lat8 := b1, mstep := 1 }, regs := { u.regs with pc := pc + 2 } }
  else u

end Sys2Proof.Machine
end

