-- ==== Sys2Proof/Machine/Step.lean ====
section
/-!
DEFINITION. The step of the machine: one tick.
-/

namespace Sys2Proof.Machine

/-- One step is one machine cycle (rules R5, R270; log 7). -/
def step (s : State) : Host.Outcome State Fault Refusal := tick s

/-- The state with an opcode-table word where the next step runs it (log 12). -/
def State.withFetchWord (s : State) (nbits w : Nat) : State :=
  withFetchBytes s (tableBytes nbits w).1 (tableBytes nbits w).2.1 (tableBytes nbits w).2.2

end Sys2Proof.Machine
end

