-- ==== Sys2Proof/Safety.lean ====
section
/-!
DEFINITION. What counts as a safe run, and the invariant of the machine: what 10_state.md says of every reachable state.
-/

namespace Sys2Proof.Machine

/-- A state of a safe run: the one fault has not been raised (rule R201). -/
abbrev State.Safe (s : State) : Prop := s.phase ≠ .faulted

/-- The low nibble of F is zero in every state (rule R11). -/
abbrev State.FlagsInv (s : State) : Prop := lowNibble s.regs.f = 0

/-- The engine (rules R19, R20, R200): in phase Run with a handler, `mstep` is a line of its listing; the phase is Faulted
exactly when there is a fault record, and the record is of the opcode that found no handler. -/
abbrev State.EngineInv (s : State) : Prop :=
  (s.phase = .run → ∀ i ∈ decodeOpcode s.ctx.cb s.ctx.opcode, s.ctx.mstep < lines i.form) ∧
  (s.phase ≠ .faulted → s.fault = none) ∧
  (s.phase = .faulted →
    s.fault = some { cb := s.ctx.cb, opcode := s.ctx.opcode, addr := s.regs.pc - 1 } ∧
    decodeOpcode s.ctx.cb s.ctx.opcode = none)

/-- The line counter agrees with the mode (rules R226 to R228). -/
abbrev Ppu.LineInv (p : Ppu) : Prop :=
  if p.mode = .vblank then 144 ≤ p.ly.toNat ∧ p.ly.toNat ≤ 153 else p.ly.toNat ≤ 143

/-- The countdown is 1 up to the budget of the mode (rule R26). -/
abbrev Ppu.CountInv (p : Ppu) : Prop := 1 ≤ p.cnt ∧ p.cnt ≤ p.mode.budget

/-- Every byte of the frame buffer that is not its reset value is one of the four shades (rule R37). -/
abbrev Ppu.ShadeInv (p : Ppu) : Prop := ∀ c ∈ p.fb, c.2 = 0xFF ∨ c.2 = 0xAA ∨ c.2 = 0x55 ∨ c.2 = 0x00

/-- Every block of bytes is in canonical form and inside its size (rules R35 to R37, R45). -/
abbrev State.MemoryInv (s : State) : Prop :=
  (s.ppu.vram.wf ∧ s.ppu.vram.below Config.vramSize) ∧
  (s.ppu.oam.wf ∧ s.ppu.oam.below Config.oamSize) ∧
  (s.ppu.fb.wf ∧ s.ppu.fb.below Config.fbSize) ∧
  (s.dev.bootRom.wf ∧ s.dev.bootRom.below Config.bootRomSize) ∧
  (s.dev.wram.wf ∧ s.dev.wram.below Config.wramSize) ∧
  (s.dev.hram.wf ∧ s.dev.hram.below Config.hramSize) ∧
  (s.dev.cart.cells.wf ∧ s.dev.cart.cells.below 0xC000) ∧
  (s.dev.timer.cells.wf ∧ s.dev.timer.cells.below 0xFF08)

/-- The invariant of the machine: it holds at reset and every step keeps it. -/
abbrev State.Inv (s : State) : Prop :=
  s.FlagsInv ∧ s.EngineInv ∧ s.ppu.LineInv ∧ s.ppu.CountInv ∧ s.ppu.ShadeInv ∧ s.MemoryInv

end Sys2Proof.Machine
end

