-- ==== Sys2Proof/Certificates/Slice0/Obligations.lean ====
section
/-!
DEFINITION. The statements for the provers. A docstring that says "the spec's decision D<n>" names a row of 92_eei_decisions.md:
there the spec itself chose, and the statement is derived. An equation of the form `exec i s = .next …` is also the statement
that instruction `i` completes its cycle from every state that meets the hypotheses.
-/

namespace Sys2Proof.Machine

/-! ## Words the statements use -/

/-- `n` ticks, stopping at the first step without a next state. -/
def steps : Nat → State → Result
  | 0, s => .next s
  | n + 1, s =>
    match step s with
    | .next t => steps n t
    | .fault r => .fault r
    | .refused r => .refused r

/-- `n` CPU cycles of one instruction, with no PPU step between them. -/
def cycles (i : Instr) : Nat → State → Result
  | 0, s => .next s
  | n + 1, s =>
    match exec i s with
    | .next t => cycles i n t
    | .fault r => .fault r
    | .refused r => .refused r

/-- A CPU step as a whole tick: the PPU step and the external interrupt input follow it (rule R5). -/
def asTick : Result → Result
  | .next t => .next (restOfTick t)
  | .fault r => .fault r
  | .refused r => .refused r

/-- `n` PPU steps. -/
def Ppu.run : Nat → Ppu → Ppu
  | 0, p => p
  | n + 1, p => (Ppu.run n p).step.1

/-- The bytes at PC and after it. -/
def bytesAtPc (s : State) : List Byte :=
  [busRead s s.regs.pc, busRead s (s.regs.pc + 1), busRead s (s.regs.pc + 2)]

/-- The opcode bytes of the first table with no handler, as rule R78 lists them. -/
def unimplementedFirst : List Byte :=
  [0x00, 0x07, 0x09, 0x0F, 0x10, 0x17, 0x19, 0x1F, 0x27, 0x29, 0x2F, 0x37, 0x39, 0x3F, 0x76] ++
  (List.range 0x38).map (fun k => BitVec.ofNat 8 (0x80 + k)) ++
  [0xC0, 0xC2, 0xC3, 0xC4, 0xC6, 0xC7, 0xC8, 0xCA, 0xCC, 0xCE, 0xCF, 0xD0, 0xD2, 0xD3, 0xD4, 0xD6, 0xD7, 0xD8, 0xDA, 0xDB,
    0xDC, 0xDD, 0xDE, 0xDF, 0xE3, 0xE4, 0xE6, 0xE7, 0xE8, 0xE9, 0xEB, 0xEC, 0xED, 0xEE, 0xEF, 0xF4, 0xF6, 0xF7, 0xF8, 0xFC,
    0xFD, 0xFF]

/-- An unimplemented opcode of either table (rule R78). -/
def unimplemented (cb : Bool) (op : Byte) : Prop :=
  (cb = false ∧ op ∈ unimplementedFirst) ∨
  (cb = true ∧ (op.toNat ≤ 0x0F ∨ (0x18 ≤ op.toNat ∧ op.toNat ≤ 0x3F) ∨ 0x80 ≤ op.toNat))

/-- The length of an instruction by its first byte (rule R79). -/
def lengthByFirstByte (op : Byte) : Nat :=
  if op ∈ ([0x06, 0x0E, 0x16, 0x1E, 0x26, 0x2E, 0x36, 0x3E, 0x18, 0x20, 0x28, 0x30, 0x38, 0xE0, 0xF0, 0xFE, 0xCB] : List Byte)
    then 2
  else if op ∈ ([0x01, 0x11, 0x21, 0x31, 0x08, 0xEA, 0xFA, 0xCD] : List Byte) then 3
  else 1

/-- Is a branch taken, given F? Every instruction but JR cc counts as taken. -/
def branches (f : Form) (flags : Byte) : Bool :=
  match f with
  | .jrCc cc => condHolds cc flags
  | _ => true

/-- The forms that load a register through an IND operand (rules R122, R126, R127, R134, R137, R138). -/
def indLoad : Form → Option (Reg8 × Ind)
  | .ldRMHl dst => some (dst, .hl)
  | .ldAMBc => some (.a, .bc)
  | .ldAMDe => some (.a, .de)
  | .ldAMC => some (.a, .highC)
  | .ldAMHlInc => some (.a, .hlInc)
  | .ldAMHlDec => some (.a, .hlDec)
  | _ => none

/-- The forms that store a register through an IND operand (rules R123, R128, R129, R133, R135, R136). -/
def indStore : Form → Option (Ind × Reg8)
  | .ldMHlR src => some (.hl, src)
  | .ldMBcA => some (.bc, .a)
  | .ldMDeA => some (.de, .a)
  | .ldMCA => some (.highC, .a)
  | .ldMHlIncA => some (.hlInc, .a)
  | .ldMHlDecA => some (.hlDec, .a)
  | _ => none

/-- The registers after the update of an IND operand (rule R101). -/
def regsAfter (k : Ind) (g : Regs) : Regs :=
  match k with
  | .hlInc => g.set16 .hl (g.get16 .hl + 1)
  | .hlDec => g.set16 .hl (g.get16 .hl - 1)
  | .bc | .de | .hl | .highC => g

/-- What an instruction can write beside PC, the latches and memory. -/
inductive Written where
  | reg (r : Reg8)
  | f
  | sp
  | ime
deriving DecidableEq, Repr

/-- The value of one of those, as a 16-bit number. -/
def State.valueOf (s : State) : Written → Word
  | .reg r => (s.regs.get8 r).zeroExtend 16
  | .f => s.regs.f.zeroExtend 16
  | .sp => s.regs.sp
  | .ime => (BitVec.ofBool s.irq.ime).zeroExtend 16

/-- The two halves of a pair, or SP. -/
def pairWrites (p : Reg16) (w : Written) : Bool :=
  match p with
  | .bc => w = .reg .b || w = .reg .c
  | .de => w = .reg .d || w = .reg .e
  | .hl => w = .reg .h || w = .reg .l
  | .af => w = .reg .a || w = .f
  | .sp => w = .sp

/-- What the rule of each form lets it write: its destination, and what its operand kind or the stack also updates. -/
def mayWrite (f : Form) (w : Written) : Bool :=
  match f with
  | .ldRR dst _ | .ldRMHl dst | .ldRD8 dst => w = .reg dst
  | .ldMHlR _ | .ldMHlD8 | .ldMBcA | .ldMDeA | .ldhMA8A | .ldMCA | .ldMA16Sp | .ldMA16A => false
  | .ldAMBc | .ldAMDe | .ldAMA16 | .ldhAMA8 | .ldAMC => w = .reg .a
  | .ldMHlIncA | .ldMHlDecA => pairWrites .hl w
  | .ldAMHlInc | .ldAMHlDec => w = .reg .a || pairWrites .hl w
  | .ldRrD16 p => pairWrites p w
  | .ldSpHl => w = .sp
  | .incR r | .decR r | .rlR r => w = .reg r || w = .f
  | .incMHl | .decMHl | .rlMHl => w = .f
  | .incRr p | .decRr p => pairWrites p w
  | .cpR _ | .cpMHl | .cpD8 | .bitR _ _ | .bitMHl _ => w = .f
  | .jr | .jrCc _ => false
  | .pushRr _ => w = .sp
  | .popRr p => pairWrites p w || w = .sp
  | .call | .ret => w = .sp
  | .reti => w = .sp || w = .ime
  | .ei | .di => w = .ime
  | .prefixCb => w ≠ .sp && w ≠ .ime

/-- The address a form stores to in the cycle `mstep` selects, if it stores in it. -/
def storeAddr (f : Form) (s : State) : Option Word :=
  match f, s.ctx.mstep with
  | .ldMHlR _, 0 => some (indAddr s .hl)
  | .ldMBcA, 0 => some (indAddr s .bc)
  | .ldMDeA, 0 => some (indAddr s .de)
  | .ldMCA, 0 => some (indAddr s .highC)
  | .ldMHlIncA, 0 => some (indAddr s .hlInc)
  | .ldMHlDecA, 0 => some (indAddr s .hlDec)
  | .ldMHlD8, 1 => some (indAddr s .hl)
  | .ldhMA8A, 1 => some (dir8Addr s)
  | .ldMA16A, 2 => some (dir16Addr s)
  | .ldMA16Sp, 2 => some (dir16Addr s)
  | .ldMA16Sp, 3 => some (dir16Addr s + 1)
  | .incMHl, 1 | .decMHl, 1 | .rlMHl, 1 => some (indAddr s .hl)
  | .pushRr _, 1 | .pushRr _, 2 => some (s.regs.sp - 1)
  | .call, 3 | .call, 4 => some (s.regs.sp - 1)
  | _, _ => none

/-- May a store to `w` change what `a` reads as? Two addresses of one memory byte (working RAM and its echo), any two
addresses of the cartridge or of the timer, whose devices may do anything with a write (rule R44), and the boot switch with
the range it uncovers (rule R55). -/
def State.storeReaches (s : State) (w a : Word) : Prop :=
  match s.target w with
  | .unmapped => False
  | .bootRom _ => False
  | .bootSwitch => a.toNat ≤ 0xFF
  | .cart _ => ∃ b, s.target a = .cart b
  | .timer _ => ∃ b, s.target a = .timer b
  | t => s.target a = t

/-- Does an address hold a byte that is stored as written, now: working RAM, high RAM, or a PPU memory that is unlocked? -/
def State.keepsByte (s : State) (a : Word) : Prop :=
  match s.target a with
  | .wram _ | .hram _ => True
  | .vram _ => s.ppu.mode.locksVram = false
  | .oam _ => s.ppu.mode.locksOam = false
  | _ => False

/-- Does an address reach working RAM (its echo included) or high RAM, which every mode of the PPU leaves open? -/
def State.inRam (s : State) (a : Word) : Prop :=
  match s.target a with
  | .wram _ | .hram _ => True
  | _ => False

/-- The external interrupt vector the coming tick takes: the head of the list, 0 when the list is used up (log 5). -/
def State.nextExtIrq (s : State) : BitVec 5 := s.extIrq.headD 0

/-- The address ranges of rule R56 with ECHO_RAM at its default. -/
def unmappedAddress (a : Nat) : Prop :=
  (0xFEA0 ≤ a ∧ a ≤ 0xFEFF) ∨ (0xFF00 ≤ a ∧ a ≤ 0xFF03) ∨ (0xFF08 ≤ a ∧ a ≤ 0xFF0E) ∨ (0xFF10 ≤ a ∧ a ≤ 0xFF3F) ∨
  a = 0xFF46 ∨ (0xFF4C ≤ a ∧ a ≤ 0xFF4F) ∨ (0xFF51 ≤ a ∧ a ≤ 0xFF7F)

/-- The grayscale byte of a shade number (rule R231). -/
def shadeOf (n : Nat) : Byte :=
  match n with
  | 0 => 0xFF
  | 1 => 0xAA
  | 2 => 0x55
  | _ => 0x00

/-- The pixel of column `x` of line `y` by the arithmetic of rule R231, in natural numbers. -/
def pixelOf (p : Ppu) (y x : Nat) : Byte :=
  let by' := (y + p.scy.toNat) % 256
  let bx := (x + p.scx.toNat) % 256
  let base := if p.lcdc.toNat / 8 % 2 = 1 then 0x1C00 else 0x1800
  let idx := (p.vram.read (base + by' / 8 * 32 + bx / 8)).toNat
  let tile := if p.lcdc.toNat / 16 % 2 = 1 then idx else if idx < 128 then 256 + idx else idx
  let row := tile * 16 + by' % 8 * 2
  let lo := (p.vram.read row).toNat / 2 ^ (7 - bx % 8) % 2
  let hi := (p.vram.read (row + 1)).toNat / 2 ^ (7 - bx % 8) % 2
  shadeOf (p.bgp.toNat / 2 ^ (2 * (hi * 2 + lo)) % 4)

/-- Two PPUs that agree on all that rule R232 lets the picture depend on. -/
structure SamePicture (p q : Ppu) : Prop where
  mode : q.mode = p.mode
  cnt : q.cnt = p.cnt
  ly : q.ly = p.ly
  enable : q.lcdc.getLsbD 7 = p.lcdc.getLsbD 7
  tileData : q.lcdc.getLsbD 4 = p.lcdc.getLsbD 4
  bgMap : q.lcdc.getLsbD 3 = p.lcdc.getLsbD 3
  bgEnable : q.lcdc.getLsbD 0 = p.lcdc.getLsbD 0
  scx : q.scx = p.scx
  scy : q.scy = p.scy
  bgp : q.bgp = p.bgp
  vram : q.vram = p.vram
  fb : q.fb = p.fb

/-- Where a frame stands `n` ticks after its start: the line, the mode and the ticks left in it. -/
def framePosition (n : Nat) : Nat × PpuMode × Nat :=
  let line := n % 17556 / 114
  let k := n % 114
  if 144 ≤ line then (line, .vblank, 114 - k)
  else if k < 20 then (line, .oamScan, 20 - k)
  else if k < 63 then (line, .drawing, 63 - k)
  else (line, .hblank, 114 - k)

end Sys2Proof.Machine

open Sys2Proof Sys2Proof.Machine

/-! ## Encoding -/

/-- Words written out from rules R75 to R77 (the map is the spec's decision D2): LD A,0; LD BC,0x1234; BIT 7,H; CP d8; JR -2;
LD B,B. -/
def Obligations.WrittenWordsDecode : Prop :=
  decode [0b00111110#8, 0x00] = .ok (⟨.ldAD8, .byte 0x00⟩, []) ∧
  decode [0b00000001#8, 0x34, 0x12] = .ok (⟨.ldBcD16, .word 0x1234⟩, []) ∧
  decode [0xCB, 0b01111100#8] = .ok (⟨.bit7H, .none⟩, []) ∧
  decode [0xFE, 0x10] = .ok (⟨.cpD8, .byte 0x10⟩, []) ∧
  decode [0b00011000#8, 0xFE] = .ok (⟨.jr, .byte 0xFE⟩, []) ∧
  decode [0b01000000#8] = .ok (⟨.ldBB, .none⟩, [])

/-- Decoding an encoded well-formed instruction gives it back, whatever bytes follow (rules R70 to R77, the spec's decision
D2; the bare prefix is log 14). -/
def Obligations.DecodeInvertsEncode : Prop :=
  ∀ (c : Code) (rest : List Byte), c.wellFormed = true → decode (encode c ++ rest) = .ok (c, rest)

/-- What decodes is well formed, encoding it gives the bytes back (each byte sequence has one meaning), and the bytes it takes are
the length rule R79 gives its first byte. That 0xCB followed by a byte with no handler decodes at all, to the bare prefix of
length 2, is the model's choice (log 14); rule R79 gives an unimplemented byte no length. -/
def Obligations.EncodeInvertsDecode : Prop :=
  ∀ (op : Byte) (bs rest : List Byte) (c : Code), decode (op :: bs) = .ok (c, rest) →
    c.wellFormed = true ∧ encode c ++ rest = op :: bs ∧ (encode c).length = lengthByFirstByte op

/-! ## The engine -/

/-- Fetch: the byte at PC is stored in the Instruction Context, PC advances (modulo 65536, the spec's decision D8), the prefix
flag and the micro-step counter are cleared, and nothing else changes. The first tick after power-on is a Fetch and nothing else,
then the rest of the tick (rules R90, R261; the spec's decision D6). -/
def Obligations.FetchReadsTheByteAtPc : Prop :=
  ∀ s : State,
    (s.phase = .boot → step s = .next (restOfTick { fetch s with phase := .run })) ∧
    (fetch s).ctx.opcode = busRead s s.regs.pc ∧ (fetch s).regs.pc = s.regs.pc + 1 ∧ (fetch s).ctx.cb = false ∧
    (fetch s).ctx.mstep = 0 ∧ (fetch s).ctx.lat8 = s.ctx.lat8 ∧ (fetch s).ctx.lat16 = s.ctx.lat16 ∧
    fetch s = { s with ctx := (fetch s).ctx, regs := { s.regs with pc := s.regs.pc + 1 } }

/-- A step in phase Run runs the instruction that (cb, opcode) selects, and then the rest of the tick. The opcode is the byte
that was at PC when Fetch ran: when the bytes at PC decode to an instruction of the first table, the step after the Fetch runs
it; when they decode to one of the second table, that step reads its second opcode and the next step runs it. -/
def Obligations.StepRunsDecodedInstruction : Prop :=
  (∀ (s : State) (i : Instr), s.phase = .run → decodeOpcode s.ctx.cb s.ctx.opcode = some i → step s = asTick (exec i s)) ∧
  (∀ (s : State) (c : Code) (rest : List Byte), s.phase = .run → decode (bytesAtPc s) = .ok (c, rest) →
    c.instr.form.isCb = false → step (fetch s) = asTick (exec c.instr (fetch s))) ∧
  (∀ (s : State) (c : Code) (rest : List Byte), s.phase = .run → decode (bytesAtPc s) = .ok (c, rest) →
    c.instr.form.isCb = true →
    ∃ t, step (fetch s) = .next t ∧ t.phase = .run ∧ t.regs = { s.regs with pc := s.regs.pc + 2 } ∧
      step t = asTick (exec c.instr { t with ctx := { t.ctx with opcode := c.instr.opcode, cb := true, mstep := 0 } }))

/-- PREFIX CB (rule R108): cycle 0 reads the second opcode; cycle 1 installs it and runs cycle 0 of the instruction it selects
in the same step, or raises the fault with the address of the second byte (the spec's decisions D7 and D33). -/
def Obligations.PrefixRedispatches : Prop :=
  ∀ s : State,
    let t := { s with ctx := { s.ctx with opcode := s.ctx.lat8, cb := true, mstep := 0 } }
    (s.ctx.mstep = 0 →
      exec .prefixCb s = .next { s with
        ctx := { s.ctx with lat8 := busRead s s.regs.pc, mstep := 1 }
        regs := { s.regs with pc := s.regs.pc + 1 } }) ∧
    (s.ctx.mstep = 1 → ∀ i, decodeOpcode true s.ctx.lat8 = some i → exec .prefixCb s = exec i t) ∧
    (s.ctx.mstep = 1 → decodeOpcode true s.ctx.lat8 = none →
      exec .prefixCb s = .next { t with
        phase := .faulted
        fault := some { cb := true, opcode := s.ctx.lat8, addr := s.regs.pc - 1 } })

/-- An unimplemented opcode (the lists of rule R78) halts the machine at its decode: the record is stored, the phase becomes
Faulted, and nothing else changes; the PPU step of that tick does not run. A faulted machine never moves again, and delivers no
frame (rules R91, R200, R201; the spec's decisions D1, D2, D7, D33). -/
def Obligations.UnimplementedOpcodeHalts : Prop :=
  (∀ s : State, s.phase = .run → unimplemented s.ctx.cb s.ctx.opcode →
    step s = .next { s with
      phase := .faulted
      fault := some { cb := s.ctx.cb, opcode := s.ctx.opcode, addr := s.regs.pc - 1 } }) ∧
  (∀ (s : State) (n : Nat), s.phase = .faulted → steps n s = .next s ∧ s.drawnFrame = none)

/-- Nothing else faults: a step that ends Faulted started Faulted, or decoded an unimplemented opcode, or was the prefix
reading in one as its second opcode (rules R200, R203). -/
def Obligations.OnlyUnimplementedOpcodesFault : Prop :=
  ∀ s t : State, step s = .next t → t.phase = .faulted →
    s.phase = .faulted ∨ (s.phase = .run ∧ unimplemented s.ctx.cb s.ctx.opcode) ∨
    (s.phase = .run ∧ s.ctx.cb = false ∧ s.ctx.opcode = 0xCB ∧ s.ctx.mstep = 1 ∧ unimplemented true s.ctx.lat8)

/-- Every cycle of every instruction completes, whatever the operands and the addresses are (rule R203). -/
def Obligations.EveryCycleCompletes : Prop :=
  ∀ (i : Instr) (s : State), s.ctx.mstep < lines i.form → ∃ t, exec i s = .next t

/-- The reset state has the invariant. -/
def Obligations.InvariantHoldsAtReset : Prop := State.reset.Inv

/-- From every state of the invariant the machine steps (no instruction stops it, rule R203), and the step keeps the invariant:
F's low nibble (R11), the engine (R19, R20, R200), the line counter and the countdown (R26, R27), the shades (R37), and the
canonical form and size of every memory (log 2). -/
def Obligations.EveryStepKeepsInvariant : Prop :=
  ∀ s : State, s.Inv → ∃ t, step s = .next t ∧ t.Inv

/-- An instruction takes the ticks of rule R110: for each tick before the last the same instruction is in flight at the next
line of its listing, and the last tick ends in the trailing Fetch (rules R93, R94, R107; the figures are the spec's decisions
D10, D11 and D28). A second-table instruction is counted from its own cycle 0, one less than the table's total; counted from
cycle 0 of its prefix it takes the total (rule R108). -/
def Obligations.InstructionsTakeTheirCost : Prop :=
  (∀ (i : Instr) (s : State), i.form ≠ .prefixCb → s.phase = .run → decodeOpcode s.ctx.cb s.ctx.opcode = some i →
    s.ctx.mstep = 0 →
    let n := cost (branches i.form s.regs.f) i.form - (if i.form.isCb then 1 else 0)
    (∀ k < n, ∃ t, steps k s = .next t ∧ t.phase = .run ∧ t.ctx.mstep = k ∧ t.ctx.opcode = s.ctx.opcode ∧ t.ctx.cb = s.ctx.cb) ∧
    ∃ x, steps n s = .next (restOfTick (fetch x))) ∧
  (∀ (j : Instr) (s : State), s.phase = .run → s.ctx.cb = false → s.ctx.opcode = 0xCB → s.ctx.mstep = 0 →
    decodeOpcode true (busRead s s.regs.pc) = some j → ∃ x, steps (cost true j.form) s = .next (restOfTick (fetch x)))

/-! ## The register file and the flags -/

/-- Pair reads (rule R12): the first register is the more significant byte. -/
def Obligations.PairReadsHighRegisterFirst : Prop :=
  ∀ g : Regs,
    (g.get16 .bc).toNat = 256 * g.b.toNat + g.c.toNat ∧ (g.get16 .de).toNat = 256 * g.d.toNat + g.e.toNat ∧
    (g.get16 .hl).toNat = 256 * g.h.toNat + g.l.toNat ∧ (g.get16 .af).toNat = 256 * g.a.toNat + g.f.toNat ∧
    g.get16 .sp = g.sp

/-- Pair writes (rule R13): both halves in one step, and a write to AF clears the low nibble of F. -/
def Obligations.PairWritesBothHalves : Prop :=
  ∀ (g : Regs) (v : Word),
    g.set16 .bc v = { g with b := v.extractLsb' 8 8, c := v.extractLsb' 0 8 } ∧
    g.set16 .de v = { g with d := v.extractLsb' 8 8, e := v.extractLsb' 0 8 } ∧
    g.set16 .hl v = { g with h := v.extractLsb' 8 8, l := v.extractLsb' 0 8 } ∧
    g.set16 .af v = { g with a := v.extractLsb' 8 8, f := v.extractLsb' 4 4 ++ 0#4 } ∧
    g.set16 .sp v = { g with sp := v }

/-- Flag accessors (rule R14): reading a flag reads its bit of F (Z 7, N 6, H 5, C 4); writing it changes that bit and no
other. -/
def Obligations.FlagWriteChangesOneBit : Prop :=
  ∀ (f : Byte) (v : Bool) (k : Nat),
    (getFlag f .z).toNat = f.toNat / 128 ∧ (getFlag f .n).toNat = f.toNat / 64 % 2 ∧
    (getFlag f .h).toNat = f.toNat / 32 % 2 ∧ (getFlag f .c).toNat = f.toNat / 16 % 2 ∧
    (setFlag .z v f).getLsbD k = (if k = 7 then v else f.getLsbD k) ∧
    (setFlag .n v f).getLsbD k = (if k = 6 then v else f.getLsbD k) ∧
    (setFlag .h v f).getLsbD k = (if k = 5 then v else f.getLsbD k) ∧
    (setFlag .c v f).getLsbD k = (if k = 4 then v else f.getLsbD k)

/-- The compare computation (rule R163), in numbers: Z on equality, N set, H on a borrow from bit 4, C on unsigned underflow; the
low nibble of F is not touched. -/
def Obligations.CompareFlags : Prop :=
  ∀ a v f : Byte,
    getFlag (cpFlags a v f) .z = decide (a.toNat = v.toNat) ∧ getFlag (cpFlags a v f) .n = true ∧
    getFlag (cpFlags a v f) .h = decide (a.toNat % 16 < v.toNat % 16) ∧
    getFlag (cpFlags a v f) .c = decide (a.toNat < v.toNat) ∧ lowNibble (cpFlags a v f) = lowNibble f

/-- The rotate computation (rule R169), as one rotation of the nine bits Carry:v: the result with the new carry above it is twice
the operand plus the old carry. -/
def Obligations.RotateLeftThroughCarry : Prop :=
  ∀ v f : Byte,
    (getFlag (rotLFlags v f) .c).toNat * 256 + (rotL v f).toNat = 2 * v.toNat + (getFlag f .c).toNat ∧
    getFlag (rotLFlags v f) .z = decide ((rotL v f).toNat = 0) ∧ getFlag (rotLFlags v f) .n = false ∧
    getFlag (rotLFlags v f) .h = false ∧ lowNibble (rotLFlags v f) = lowNibble f

/-- The four conditions (rule R177): bit 7 of F and bit 4 of F. -/
def Obligations.ConditionsReadZeroAndCarry : Prop :=
  ∀ s : State,
    let f := s.regs.f
    condHolds .nz f = decide (f.toNat / 128 % 2 = 0) ∧ condHolds .z f = decide (f.toNat / 128 % 2 = 1) ∧
    condHolds .nc f = decide (f.toNat / 16 % 2 = 0) ∧ condHolds .c f = decide (f.toNat / 16 % 2 = 1)

/-! ## The instructions, cycle by cycle -/

/-- LD r,r' and LD SP,HL (rules R121, R142; the cost of the second is the spec's decision D28): the destination takes the source
and the instruction completes in one cycle. -/
def Obligations.RegisterLoads : Prop :=
  (∀ (i : Instr) (dst src : Reg8) (s : State), i.form = .ldRR dst src → s.ctx.mstep = 0 →
    exec i s = .next (fetch { s with regs := s.regs.set8 dst (s.regs.get8 src) })) ∧
  (∀ s : State, s.ctx.mstep = 0 → exec .ldSpHl s = .next (fetch { s with regs := { s.regs with sp := s.regs.h ++ s.regs.l } }))

/-- The addresses of kind IND (rule R101). -/
def Obligations.IndirectAddresses : Prop :=
  ∀ s : State,
    (indAddr s .bc).toNat = 256 * s.regs.b.toNat + s.regs.c.toNat ∧ (indAddr s .de).toNat = 256 * s.regs.d.toNat + s.regs.e.toNat ∧
    (indAddr s .hl).toNat = 256 * s.regs.h.toNat + s.regs.l.toNat ∧ indAddr s .hlInc = indAddr s .hl ∧
    indAddr s .hlDec = indAddr s .hl ∧ indAddr s .highC = 0xFF00#16 ||| s.regs.c.zeroExtend 16

/-- Loads through BC, DE, HL, HL+, HL-, C: the read in cycle 0, with the update of HL; the register in cycle 1, with the Fetch
(rules R122, R126, R127, R134, R137, R138; the update's cycle is the spec's decision D30). -/
def Obligations.IndirectLoads : Prop :=
  ∀ (i : Instr) (dst : Reg8) (k : Ind) (s : State), indLoad i.form = some (dst, k) →
    (s.ctx.mstep = 0 →
      exec i s = .next { s with
        ctx := { s.ctx with lat8 := busRead s (indAddr s k), mstep := 1 }
        regs := regsAfter k s.regs }) ∧
    (s.ctx.mstep = 1 → exec i s = .next (fetch { s with regs := s.regs.set8 dst s.ctx.lat8 }))

/-- Stores through BC, DE, HL, HL+, HL-, C: the write in cycle 0, with the update of HL; the Fetch in cycle 1 (rules R123, R128,
R129, R133, R135, R136). -/
def Obligations.IndirectStores : Prop :=
  ∀ (i : Instr) (src : Reg8) (k : Ind) (s : State), indStore i.form = some (k, src) →
    (s.ctx.mstep = 0 →
      exec i s = .next { busWrite s (indAddr s k) (s.regs.get8 src) with
        ctx := { s.ctx with mstep := 1 }
        regs := regsAfter k s.regs }) ∧
    (s.ctx.mstep = 1 → exec i s = .next (fetch s))

/-- LD r,d8 and LD (HL),d8 (rules R99, R124, R125): the immediate is read in cycle 0 and PC advances. -/
def Obligations.ByteImmediateLoads : Prop :=
  (∀ (i : Instr) (dst : Reg8) (s : State), i.form = .ldRD8 dst →
    (s.ctx.mstep = 0 →
      exec i s = .next { s with
        ctx := { s.ctx with lat8 := busRead s s.regs.pc, mstep := 1 }
        regs := { s.regs with pc := s.regs.pc + 1 } }) ∧
    (s.ctx.mstep = 1 → exec i s = .next (fetch { s with regs := s.regs.set8 dst s.ctx.lat8 }))) ∧
  (∀ s : State,
    (s.ctx.mstep = 0 →
      exec .ldMHlD8 s = .next { s with
        ctx := { s.ctx with lat8 := busRead s s.regs.pc, mstep := 1 }
        regs := { s.regs with pc := s.regs.pc + 1 } }) ∧
    (s.ctx.mstep = 1 →
      exec .ldMHlD8 s = .next { busWrite s (indAddr s .hl) s.ctx.lat8 with ctx := { s.ctx with mstep := 2 } }) ∧
    (s.ctx.mstep = 2 → exec .ldMHlD8 s = .next (fetch s)))

/-- LDH (a8),A and LDH A,(a8) (rules R102, R131, R132; the operand's cost is the spec's decision D11): the address is 0xFF00
with the offset byte read in cycle 0. -/
def Obligations.HighPageLoads : Prop :=
  ∀ (i : Instr) (s : State), i = .ldhMA8A ∨ i = .ldhAMA8 →
    (s.ctx.mstep = 0 →
      exec i s = .next { s with
        ctx := { s.ctx with lat8 := busRead s s.regs.pc, mstep := 1 }
        regs := { s.regs with pc := s.regs.pc + 1 } }) ∧
    (s.ctx.mstep = 1 → i = .ldhMA8A →
      exec i s = .next { busWrite s (0xFF00#16 ||| s.ctx.lat8.zeroExtend 16) s.regs.a with ctx := { s.ctx with mstep := 2 } }) ∧
    (s.ctx.mstep = 1 → i = .ldhAMA8 →
      exec i s = .next { s with
        ctx := { s.ctx with lat8 := busRead s (0xFF00#16 ||| s.ctx.lat8.zeroExtend 16), mstep := 2 } }) ∧
    (s.ctx.mstep = 2 → i = .ldhMA8A → exec i s = .next (fetch s)) ∧
    (s.ctx.mstep = 2 → i = .ldhAMA8 → exec i s = .next (fetch { s with regs := { s.regs with a := s.ctx.lat8 } }))

/-- The two reads of a 16-bit immediate, low byte first (rules R75, R100; the spec's decision D9), of every instruction that
has one: LD A,(a16), LD (a16),A, LD (a16),SP, LD rr,d16, CALL. -/
def Obligations.WordImmediateReadLowByteFirst : Prop :=
  ∀ (i : Instr) (s : State), i.form.immKind = .word →
    (s.ctx.mstep = 0 →
      exec i s = .next { s with
        ctx := { s.ctx with lat16 := s.ctx.lat16.extractLsb' 8 8 ++ busRead s s.regs.pc, mstep := 1 }
        regs := { s.regs with pc := s.regs.pc + 1 } }) ∧
    (s.ctx.mstep = 1 →
      exec i s = .next { s with
        ctx := { s.ctx with lat16 := busRead s s.regs.pc ++ s.ctx.lat16.extractLsb' 0 8, mstep := 2 }
        regs := { s.regs with pc := s.regs.pc + 1 } })

/-- LD A,(a16), LD (a16),A, LD (a16),SP and LD rr,d16 after their operand has been read (rules R103, R130, R139, R140, R141):
SP's low byte goes to the lower address (the spec's decision D9). -/
def Obligations.AbsoluteAndPairLoads : Prop :=
  ∀ s : State,
    (s.ctx.mstep = 2 →
      exec .ldAMA16 s = .next { s with ctx := { s.ctx with lat8 := busRead s s.ctx.lat16, mstep := 3 } } ∧
      exec .ldMA16A s = .next { busWrite s s.ctx.lat16 s.regs.a with ctx := { s.ctx with mstep := 3 } } ∧
      exec .ldMA16Sp s = .next { busWrite s s.ctx.lat16 (s.regs.sp.extractLsb' 0 8) with ctx := { s.ctx with mstep := 3 } } ∧
      ∀ (i : Instr) (p : Reg16), i.form = .ldRrD16 p →
        exec i s = .next (fetch { s with regs := s.regs.set16 p s.ctx.lat16 })) ∧
    (s.ctx.mstep = 3 →
      exec .ldAMA16 s = .next (fetch { s with regs := { s.regs with a := s.ctx.lat8 } }) ∧
      exec .ldMA16A s = .next (fetch s) ∧
      exec .ldMA16Sp s =
        .next { busWrite s (s.ctx.lat16 + 1) (s.regs.sp.extractLsb' 8 8) with ctx := { s.ctx with mstep := 4 } }) ∧
    (s.ctx.mstep = 4 → exec .ldMA16Sp s = .next (fetch s))

/-- INC r and DEC r (rules R150, R152): the result wraps, Z, N and H are written as shown, C is kept, and the instruction
completes in one cycle. -/
def Obligations.IncDecRegister : Prop :=
  ∀ (i : Instr) (r : Reg8) (s : State), s.ctx.mstep = 0 →
    (i.form = .incR r → ∃ f : Byte,
      exec i s = .next (fetch { s with regs := { s.regs.set8 r (s.regs.get8 r + 1) with f := f } }) ∧
      getFlag f .z = decide (s.regs.get8 r = 0xFF) ∧ getFlag f .n = false ∧
      getFlag f .h = decide ((s.regs.get8 r).toNat % 16 = 15) ∧ getFlag f .c = getFlag s.regs.f .c ∧
      lowNibble f = lowNibble s.regs.f) ∧
    (i.form = .decR r → ∃ f : Byte,
      exec i s = .next (fetch { s with regs := { s.regs.set8 r (s.regs.get8 r - 1) with f := f } }) ∧
      getFlag f .z = decide (s.regs.get8 r = 0x01) ∧ getFlag f .n = true ∧
      getFlag f .h = decide ((s.regs.get8 r).toNat % 16 = 0) ∧ getFlag f .c = getFlag s.regs.f .c ∧
      lowNibble f = lowNibble s.regs.f)

/-- INC (HL) and DEC (HL) (rules R151, R153): read, then write and flags by the value read, then Fetch; C is kept (the cycle
of the flags is the spec's decision D31). -/
def Obligations.IncDecMemory : Prop :=
  ∀ (i : Instr) (s : State), i = .incMHl ∨ i = .decMHl →
    (s.ctx.mstep = 0 →
      exec i s = .next { s with ctx := { s.ctx with lat8 := busRead s (indAddr s .hl), mstep := 1 } }) ∧
    (s.ctx.mstep = 1 → ∃ f : Byte,
      exec i s = .next { busWrite s (indAddr s .hl) (if i = .incMHl then s.ctx.lat8 + 1 else s.ctx.lat8 - 1) with
        ctx := { s.ctx with mstep := 2 }
        regs := { s.regs with f := f } } ∧
      getFlag f .z = decide (s.ctx.lat8 = if i = .incMHl then 0xFF else 0x01) ∧
      getFlag f .n = decide (i = .decMHl) ∧
      getFlag f .h = decide (s.ctx.lat8.toNat % 16 = if i = .incMHl then 15 else 0) ∧
      getFlag f .c = getFlag s.regs.f .c ∧ lowNibble f = lowNibble s.regs.f) ∧
    (s.ctx.mstep = 2 → exec i s = .next (fetch s))

/-- INC rr and DEC rr (rules R154, R155): 16-bit wrapping arithmetic, no flag; two cycles (the spec's decision D10). -/
def Obligations.IncDecPair : Prop :=
  ∀ (i : Instr) (p : Reg16) (s : State),
    (i.form = .incRr p → s.ctx.mstep = 0 →
      exec i s = .next { s with regs := s.regs.set16 p (s.regs.get16 p + 1), ctx := { s.ctx with mstep := 1 } }) ∧
    (i.form = .decRr p → s.ctx.mstep = 0 →
      exec i s = .next { s with regs := s.regs.set16 p (s.regs.get16 p - 1), ctx := { s.ctx with mstep := 1 } }) ∧
    (i.form = .incRr p ∨ i.form = .decRr p → s.ctx.mstep = 1 → exec i s = .next (fetch s))

/-- INC then DEC of a register, or the reverse, restores it and leaves Carry (rule R156). -/
def Obligations.IncThenDecRestores : Prop :=
  ∀ (i j : Instr) (r : Reg8) (s t u : State), s.ctx.mstep = 0 →
    (i.form = .incR r ∧ j.form = .decR r) ∨ (i.form = .decR r ∧ j.form = .incR r) →
    exec i s = .next t → exec j t = .next u →
    u.regs = { s.regs with pc := s.regs.pc + 1 + 1, f := u.regs.f } ∧ getFlag u.regs.f .c = getFlag s.regs.f .c

/-- CP r, CP (HL), CP d8 (rules R160 to R162): only F changes, by the computation of rule R163. -/
def Obligations.CompareChangesOnlyFlags : Prop :=
  ∀ s : State,
    (∀ (i : Instr) (r : Reg8), i.form = .cpR r → s.ctx.mstep = 0 →
      exec i s = .next (fetch { s with regs := { s.regs with f := cpFlags s.regs.a (s.regs.get8 r) s.regs.f } })) ∧
    (s.ctx.mstep = 0 →
      exec .cpMHl s = .next { s with ctx := { s.ctx with lat8 := busRead s (indAddr s .hl), mstep := 1 } } ∧
      exec .cpD8 s = .next { s with
        ctx := { s.ctx with lat8 := busRead s s.regs.pc, mstep := 1 }
        regs := { s.regs with pc := s.regs.pc + 1 } }) ∧
    (s.ctx.mstep = 1 → ∀ i : Instr, i = .cpMHl ∨ i = .cpD8 →
      exec i s = .next (fetch { s with regs := { s.regs with f := cpFlags s.regs.a s.ctx.lat8 s.regs.f } }))

/-- RL r and RL (HL) (rules R165, R166) by the computation of rule R169; their own cycles, after the prefix's. -/
def Obligations.RotateInstructions : Prop :=
  ∀ s : State,
    (∀ (i : Instr) (r : Reg8), i.form = .rlR r → s.ctx.mstep = 0 →
      exec i s = .next (fetch { s with
        regs := { s.regs.set8 r (rotL (s.regs.get8 r) s.regs.f) with f := rotLFlags (s.regs.get8 r) s.regs.f } })) ∧
    (s.ctx.mstep = 0 → exec .rlMHl s = .next { s with ctx := { s.ctx with lat8 := busRead s (indAddr s .hl), mstep := 1 } }) ∧
    (s.ctx.mstep = 1 →
      exec .rlMHl s = .next { busWrite s (indAddr s .hl) (rotL s.ctx.lat8 s.regs.f) with
        ctx := { s.ctx with mstep := 2 }
        regs := { s.regs with f := rotLFlags s.ctx.lat8 s.regs.f } }) ∧
    (s.ctx.mstep = 2 → exec .rlMHl s = .next (fetch s))

/-- BIT b,r and BIT b,(HL) (rules R167, R168): Z is the complement of bit b, N cleared, H set, C kept; nothing is written
back. -/
def Obligations.BitTests : Prop :=
  ∀ (i : Instr) (b : Fin 8) (s : State),
    (∀ r : Reg8, i.form = .bitR b r → s.ctx.mstep = 0 → ∃ f : Byte,
      exec i s = .next (fetch { s with regs := { s.regs with f := f } }) ∧
      getFlag f .z = decide ((s.regs.get8 r).toNat / 2 ^ b.val % 2 = 0) ∧ getFlag f .n = false ∧ getFlag f .h = true ∧
      getFlag f .c = getFlag s.regs.f .c ∧ lowNibble f = lowNibble s.regs.f) ∧
    (i.form = .bitMHl b → s.ctx.mstep = 0 →
      exec i s = .next { s with ctx := { s.ctx with lat8 := busRead s (indAddr s .hl), mstep := 1 } }) ∧
    (i.form = .bitMHl b → s.ctx.mstep = 1 → ∃ f : Byte,
      exec i s = .next (fetch { s with regs := { s.regs with f := f } }) ∧
      getFlag f .z = decide (s.ctx.lat8.toNat / 2 ^ b.val % 2 = 0) ∧ getFlag f .n = false ∧ getFlag f .h = true ∧
      getFlag f .c = getFlag s.regs.f .c ∧ lowNibble f = lowNibble s.regs.f)

/-- JR and JR cc (rules R175, R176): the displacement is read in cycle 0; in cycle 1 a taken branch adds it, sign-extended, to the
PC after the operand, and one that is not taken fetches (costs and wrap: the spec's decisions D10, D8). -/
def Obligations.RelativeJumps : Prop :=
  ∀ (i : Instr) (s : State), i.form = .jr ∨ (∃ cc, i.form = .jrCc cc) →
    (s.ctx.mstep = 0 →
      exec i s = .next { s with
        ctx := { s.ctx with lat8 := busRead s s.regs.pc, mstep := 1 }
        regs := { s.regs with pc := s.regs.pc + 1 } }) ∧
    (s.ctx.mstep = 1 → branches i.form s.regs.f = true →
      exec i s = .next { s with
        ctx := { s.ctx with mstep := 2 }
        regs := { s.regs with pc := BitVec.ofInt 16 (s.regs.pc.toNat + s.ctx.lat8.toInt) } }) ∧
    (s.ctx.mstep = 1 → branches i.form s.regs.f = false → exec i s = .next (fetch s)) ∧
    (s.ctx.mstep = 2 → exec i s = .next (fetch s))

/-- PUSH rr (rules R180, R183): an internal cycle, the high byte at SP - 1, the low byte below it, the Fetch (cost and wrap:
the spec's decisions D10, D8). -/
def Obligations.PushCycles : Prop :=
  ∀ (i : Instr) (p : Reg16) (s : State), i.form = .pushRr p →
    (s.ctx.mstep = 0 → exec i s = .next { s with ctx := { s.ctx with mstep := 1 } }) ∧
    (s.ctx.mstep = 1 →
      exec i s = .next { busWrite s (s.regs.sp - 1) ((s.regs.get16 p).extractLsb' 8 8) with
        ctx := { s.ctx with mstep := 2 }
        regs := { s.regs with sp := s.regs.sp - 1 } }) ∧
    (s.ctx.mstep = 2 →
      exec i s = .next { busWrite s (s.regs.sp - 1) ((s.regs.get16 p).extractLsb' 0 8) with
        ctx := { s.ctx with mstep := 3 }
        regs := { s.regs with sp := s.regs.sp - 1 } }) ∧
    (s.ctx.mstep = 3 → exec i s = .next (fetch s))

/-- POP rr, RET and RETI (rules R181, R186, R187, R183): the low byte, then the high byte, are read at SP, which is incremented
after each; POP then writes the pair (AF without F's low nibble) with the Fetch, RET and RETI load PC and fetch a cycle later,
and RETI sets `ime` (in its last cycle: the spec's decision D27). -/
def Obligations.PopAndReturnCycles : Prop :=
  ∀ (i : Instr) (s : State),
    ((∃ p, i.form = .popRr p) ∨ i = .ret ∨ i = .reti →
      (s.ctx.mstep = 0 →
        exec i s = .next { s with
          ctx := { s.ctx with lat16 := s.ctx.lat16.extractLsb' 8 8 ++ busRead s s.regs.sp, mstep := 1 }
          regs := { s.regs with sp := s.regs.sp + 1 } }) ∧
      (s.ctx.mstep = 1 →
        exec i s = .next { s with
          ctx := { s.ctx with lat16 := busRead s s.regs.sp ++ s.ctx.lat16.extractLsb' 0 8, mstep := 2 }
          regs := { s.regs with sp := s.regs.sp + 1 } })) ∧
    (∀ p, i.form = .popRr p → s.ctx.mstep = 2 →
      exec i s = .next (fetch { s with regs := s.regs.set16 p s.ctx.lat16 })) ∧
    (i = .ret ∨ i = .reti → s.ctx.mstep = 2 →
      exec i s = .next { s with ctx := { s.ctx with mstep := 3 }, regs := { s.regs with pc := s.ctx.lat16 } }) ∧
    (i = .ret → s.ctx.mstep = 3 → exec i s = .next (fetch s)) ∧
    (i = .reti → s.ctx.mstep = 3 → exec i s = .next (fetch { s with irq := { s.irq with ime := true } }))

/-- CALL a16 after its operand has been read (rules R183, R185): an internal cycle, PC's high byte at SP - 1, its low byte below
it, then PC takes the operand and the Fetch reads there. -/
def Obligations.CallCycles : Prop :=
  ∀ s : State,
    (s.ctx.mstep = 2 → exec .call s = .next { s with ctx := { s.ctx with mstep := 3 } }) ∧
    (s.ctx.mstep = 3 →
      exec .call s = .next { busWrite s (s.regs.sp - 1) (s.regs.pc.extractLsb' 8 8) with
        ctx := { s.ctx with mstep := 4 }
        regs := { s.regs with sp := s.regs.sp - 1 } }) ∧
    (s.ctx.mstep = 4 →
      exec .call s = .next { busWrite s (s.regs.sp - 1) (s.regs.pc.extractLsb' 0 8) with
        ctx := { s.ctx with mstep := 5 }
        regs := { s.regs with sp := s.regs.sp - 1 } }) ∧
    (s.ctx.mstep = 5 → exec .call s = .next (fetch { s with regs := { s.regs with pc := s.ctx.lat16 } }))

/-- EI and DI (rules R190, R191): `ime` is set or cleared in the one cycle, with no delay (the spec's decision D13). -/
def Obligations.EnableAndDisableInterrupts : Prop :=
  ∀ s : State, s.ctx.mstep = 0 →
    exec .ei s = .next (fetch { s with irq := { s.irq with ime := true } }) ∧
    exec .di s = .next (fetch { s with irq := { s.irq with ime := false } })

/-- PUSH rr then POP rr' (rule R182): rr' takes rr (AF without its low nibble), SP returns, and every other register but PC is
unchanged. First as CPU cycles alone, with no PPU step between them, when the two bytes below SP are stored as written; then as
whole ticks, the PPU step and the external input in each, for a stack in working or high RAM. -/
def Obligations.PushThenPopMovesThePair : Prop :=
  (∀ (i j : Instr) (p q : Reg16) (s t u : State), i.form = .pushRr p → j.form = .popRr q → s.MemoryInv → s.ctx.mstep = 0 →
    s.keepsByte (s.regs.sp - 1) → s.keepsByte (s.regs.sp - 2) →
    cycles i 4 s = .next t → cycles j 3 t = .next u →
    u.regs = { s.regs.set16 q (s.regs.get16 p) with pc := s.regs.pc + 1 + 1 }) ∧
  (∀ (i j : Instr) (p q : Reg16) (s t u : State), i.form = .pushRr p → j.form = .popRr q → s.MemoryInv → s.phase = .run →
    s.ctx.mstep = 0 → s.inRam (s.regs.sp - 1) → s.inRam (s.regs.sp - 2) →
    decodeOpcode s.ctx.cb s.ctx.opcode = some i → steps 4 s = .next t →
    decodeOpcode t.ctx.cb t.ctx.opcode = some j → steps 3 t = .next u →
    u.regs = { s.regs.set16 q (s.regs.get16 p) with pc := s.regs.pc + 1 + 1 })

/-- CALL then RET (rules R185, R186): SP returns and the next opcode is fetched from the address after the CALL. First as CPU
cycles alone, with no PPU step between them, when the two bytes below SP are stored as written; then as whole ticks, the PPU step
and the external input in each, for a stack in working or high RAM. -/
def Obligations.CallThenReturnComesBack : Prop :=
  (∀ s t u : State, s.MemoryInv → s.ctx.mstep = 0 → s.keepsByte (s.regs.sp - 1) → s.keepsByte (s.regs.sp - 2) →
    cycles .call 6 s = .next t → cycles .ret 4 t = .next u →
    u.regs = { s.regs with pc := s.regs.pc + 2 + 1 } ∧ u.ctx.opcode = busRead u (s.regs.pc + 2)) ∧
  (∀ s t u : State, s.MemoryInv → s.phase = .run → s.ctx.mstep = 0 → s.inRam (s.regs.sp - 1) → s.inRam (s.regs.sp - 2) →
    decodeOpcode s.ctx.cb s.ctx.opcode = some .call → steps 6 s = .next t →
    decodeOpcode t.ctx.cb t.ctx.opcode = some .ret → steps 4 t = .next u →
    u.regs = { s.regs with pc := s.regs.pc + 2 + 1 } ∧ ∃ x, x.regs.pc = s.regs.pc + 2 ∧ u = restOfTick (fetch x))

/-! ## Frames -/

/-- A cycle of an instruction leaves every register, F, SP and `ime` as it was, unless the instruction's rule says it writes it
(rules R15, R21, R120, R188, R192). -/
def Obligations.InstructionsWriteOnlyTheirRegisters : Prop :=
  ∀ (i : Instr) (s t : State) (w : Written), exec i s = .next t → mayWrite i.form w = false → t.valueOf w = s.valueOf w

/-- A cycle of an instruction changes no byte of memory but those its store reaches: no byte when it stores none, and else only
what shares the stored byte's place (rules R41 to R45, R55). -/
def Obligations.InstructionsChangeOnlyTheStoredByte : Prop :=
  ∀ (i : Instr) (s t : State), exec i s = .next t →
    (storeAddr i.form s = none → ∀ a, busRead t a = busRead s a) ∧
    (∀ w, storeAddr i.form s = some w → ∀ a, ¬ s.storeReaches w a → busRead t a = busRead s a)

/-- No instruction moves what only the PPU step writes, the external input or, unless the fault is raised, the phase and the fault
record; the overlay flag changes only by a store to 0xFF50 (rules R10, R24 to R27, R30). -/
def Obligations.InstructionsLeavePpuStateAlone : Prop :=
  ∀ (i : Instr) (s t : State), exec i s = .next t →
    t.ppu.mode = s.ppu.mode ∧ t.ppu.cnt = s.ppu.cnt ∧ t.ppu.ly = s.ppu.ly ∧ t.ppu.lycEq = s.ppu.lycEq ∧ t.ppu.fb = s.ppu.fb ∧
    t.ppu.frameComplete = s.ppu.frameComplete ∧ t.extIrq = s.extIrq ∧ t.dev.bootRom = s.dev.bootRom ∧
    (t.phase = s.phase ∧ t.fault = s.fault ∨ i = .prefixCb ∧ t.phase = .faulted) ∧
    (storeAddr i.form s ≠ some 0xFF50 → t.bootActive = s.bootActive)

/-- The rest of a tick moves nothing of the CPU: registers, context, phase, fault record, `ime`, IE, the overlay flag, the devices,
video RAM, object memory and the PPU registers keep their values, and IF only gains bits (rules R5, R63, R204). -/
def Obligations.RestOfTickLeavesCpuStateAlone : Prop :=
  ∀ s : State,
    let t := restOfTick s
    t.regs = s.regs ∧ t.ctx = s.ctx ∧ t.phase = s.phase ∧ t.fault = s.fault ∧ t.irq.ime = s.irq.ime ∧
    t.irq.enable = s.irq.enable ∧ t.bootActive = s.bootActive ∧ t.dev = s.dev ∧ t.ppu.vram = s.ppu.vram ∧
    t.ppu.oam = s.ppu.oam ∧ t.ppu.lcdc = s.ppu.lcdc ∧ t.ppu.statCfg = s.ppu.statCfg ∧ t.ppu.lyc = s.ppu.lyc ∧
    t.ppu.scx = s.ppu.scx ∧ t.ppu.scy = s.ppu.scy ∧ t.ppu.wx = s.ppu.wx ∧ t.ppu.wy = s.ppu.wy ∧ t.ppu.bgp = s.ppu.bgp ∧
    t.ppu.obp0 = s.ppu.obp0 ∧ t.ppu.obp1 = s.ppu.obp1 ∧ s.irq.flags &&& t.irq.flags = s.irq.flags

/-! ## The bus -/

/-- Unmapped addresses (rule R56) read 0xFF and drop writes. -/
def Obligations.UnmappedAddressesAreOpenBus : Prop :=
  ∀ (s : State) (a : Word) (v : Byte), unmappedAddress a.toNat → busRead s a = 0xFF ∧ busWrite s a v = s

/-- Working RAM with its echo, and high RAM, read back what was written, and every other address, whatever it selects, reads as
before; only the echo partner of the address shares its byte (rules R44, R51, R57, R63; the ranges are the spec's decision D3,
the echo D24, the offsets D25). -/
def Obligations.RamReadsBack : Prop :=
  ∀ (s : State) (a b : Word) (v : Byte), s.MemoryInv →
    (0xC000 ≤ a.toNat ∧ a.toNat ≤ 0xFDFF ∨ 0xFF80 ≤ a.toNat ∧ a.toNat ≤ 0xFFFE) →
    busRead (busWrite s a v) a = v ∧
    (0xC000 ≤ a.toNat → a.toNat ≤ 0xDDFF → busRead (busWrite s a v) (a + 0x2000) = v) ∧
    (0xE000 ≤ a.toNat → a.toNat ≤ 0xFDFF → busRead (busWrite s a v) (a - 0x2000) = v) ∧
    (b ≠ a → ¬ (0xC000 ≤ a.toNat ∧ a.toNat ≤ 0xDDFF ∧ b = a + 0x2000) →
      ¬ (0xE000 ≤ a.toNat ∧ a.toNat ≤ 0xFDFF ∧ b = a - 0x2000) → busRead (busWrite s a v) b = busRead s b)

/-- The locks (rules R49, R50): video RAM in mode 3 and object memory in modes 2 and 3 read 0xFF and drop writes, whether or not
the PPU is on (the spec's decision D20); otherwise they read back what was written. -/
def Obligations.PpuMemoryLocks : Prop :=
  ∀ (s : State) (a : Word) (v : Byte),
    (0x8000 ≤ a.toNat ∧ a.toNat ≤ 0x9FFF →
      (s.ppu.mode = .drawing → busRead s a = 0xFF ∧ busWrite s a v = s) ∧
      (s.ppu.mode ≠ .drawing → s.ppu.vram.wf →
        busRead s a = s.ppu.vram.read (a.toNat - 0x8000) ∧ busRead (busWrite s a v) a = v)) ∧
    (0xFE00 ≤ a.toNat ∧ a.toNat ≤ 0xFE9F →
      (s.ppu.mode = .drawing ∨ s.ppu.mode = .oamScan → busRead s a = 0xFF ∧ busWrite s a v = s) ∧
      (s.ppu.mode = .hblank ∨ s.ppu.mode = .vblank → s.ppu.oam.wf →
        busRead s a = s.ppu.oam.read (a.toNat - 0xFE00) ∧ busRead (busWrite s a v) a = v))

/-- The PPU registers (rule R52): what each address reads as and what a write does, in every mode (addresses: the spec's decision
D4). STAT is assembled on read (rule R31; bit 7, which reads 1, is the spec's decision D18). -/
def Obligations.PpuRegistersOnTheBus : Prop :=
  ∀ (s : State) (v : Byte),
    (busRead s 0xFF40 = s.ppu.lcdc ∧ busWrite s 0xFF40 v = { s with ppu := { s.ppu with lcdc := v } }) ∧
    (busRead s 0xFF41 = 1#1 ++ s.ppu.statCfg ++ BitVec.ofBool s.ppu.lycEq ++
        (match s.ppu.mode with | .hblank => 0b00#2 | .vblank => 0b01#2 | .oamScan => 0b10#2 | .drawing => 0b11#2) ∧
      busWrite s 0xFF41 v = { s with ppu := { s.ppu with statCfg := v.extractLsb' 3 4 } }) ∧
    (busRead s 0xFF42 = s.ppu.scy ∧ busWrite s 0xFF42 v = { s with ppu := { s.ppu with scy := v } }) ∧
    (busRead s 0xFF43 = s.ppu.scx ∧ busWrite s 0xFF43 v = { s with ppu := { s.ppu with scx := v } }) ∧
    (busRead s 0xFF44 = s.ppu.ly ∧ busWrite s 0xFF44 v = s) ∧
    (busRead s 0xFF45 = s.ppu.lyc ∧ busWrite s 0xFF45 v = { s with ppu := { s.ppu with lyc := v } }) ∧
    (busRead s 0xFF46 = 0xFF ∧ busWrite s 0xFF46 v = s) ∧
    (busRead s 0xFF47 = s.ppu.bgp ∧ busWrite s 0xFF47 v = { s with ppu := { s.ppu with bgp := v } }) ∧
    (busRead s 0xFF48 = s.ppu.obp0 ∧ busWrite s 0xFF48 v = { s with ppu := { s.ppu with obp0 := v } }) ∧
    (busRead s 0xFF49 = s.ppu.obp1 ∧ busWrite s 0xFF49 v = { s with ppu := { s.ppu with obp1 := v } }) ∧
    (busRead s 0xFF4A = s.ppu.wy ∧ busWrite s 0xFF4A v = { s with ppu := { s.ppu with wy := v } }) ∧
    (busRead s 0xFF4B = s.ppu.wx ∧ busWrite s 0xFF4B v = { s with ppu := { s.ppu with wx := v } })

/-- STAT is assembled on read (rules R31, R237): after a write of any byte it reads bit 7 as 1, bits 6 to 3 as written, bit 2 as
the equality bit and bits 1 to 0 as the mode's number (bit 7: the spec's decision D18). -/
def Obligations.StatRoundTrip : Prop :=
  ∀ (s : State) (v : Byte),
    (busRead (busWrite s 0xFF41 v) 0xFF41).toNat =
      128 + v.toNat / 8 % 16 * 8 + s.ppu.lycEq.toNat * 4 +
        (match s.ppu.mode with | .hblank => 0 | .vblank => 1 | .oamScan => 2 | .drawing => 3)

/-- The two interrupt registers (rule R54): all eight bits of IF at 0xFF0F and of IE at 0xFFFF, in both directions. -/
def Obligations.InterruptRegistersOnTheBus : Prop :=
  ∀ (s : State) (v : Byte),
    busRead s 0xFF0F = s.irq.flags ∧ busWrite s 0xFF0F v = { s with irq := { s.irq with flags := v } } ∧
    busRead s 0xFFFF = s.irq.enable ∧ busWrite s 0xFFFF v = { s with irq := { s.irq with enable := v } }

/-- The boot overlay (rules R24, R47, R55; the spec's decisions D3, D23): while active, 0x0000 to 0x00FF read the boot ROM, which
ignores writes; any write to 0xFF50 switches it off, after which the range reads and writes the cartridge, and no number of
ticks switches it on again; 0xFF50 reads 0xFF. -/
def Obligations.BootOverlay : Prop :=
  (∀ (n : Nat) (s t : State), s.bootActive = false → steps n s = .next t → t.bootActive = false) ∧
  ∀ (s : State) (a : Word) (v : Byte), a.toNat ≤ 0xFF →
    (s.bootActive = true → busRead s a = s.dev.bootRom.read a.toNat ∧ busWrite s a v = s) ∧
    (s.bootActive = false → busRead s a = s.dev.cart.read Config.cartAnswer a ∧
      busWrite s a v = { s with dev := { s.dev with cart := s.dev.cart.write a v } }) ∧
    busRead s 0xFF50 = 0xFF ∧ busWrite s 0xFF50 v = { s with bootActive := false }

/-! ## The interrupt controller -/

/-- The pending mask and the raise operation (rules R208, R210), and the external input (R209), bit by bit; sources are the five
low bits. That the input's vectors are a list in State, whose head each tick takes and which gives 0 when it is used up, is the
model's choice (log 5, DESIGN CHOICE). -/
def Obligations.PendingAndRaise : Prop :=
  ∀ (s : State) (v : BitVec 5) (rest : List (BitVec 5)) (k : Nat),
    s.pending.getLsbD k = (s.irq.flags.getLsbD k && s.irq.enable.getLsbD k && decide (k < 5)) ∧
    (∀ j < 5, (raiseIrq s (irqMask j)).irq.flags.getLsbD k = (s.irq.flags.getLsbD k || decide (k = j))) ∧
    (s.extIrq = v :: rest → (sampleExtIrq s).extIrq = rest ∧
      (sampleExtIrq s).irq.flags.getLsbD k = (s.irq.flags.getLsbD k || v.getLsbD k)) ∧
    (s.extIrq = [] → sampleExtIrq s = s)

/-- The machine never takes an interrupt and nothing reads `ime` (rules R21, R212; the spec's decision D12): two machines that
differ only in `ime` step to machines that differ only in `ime`. -/
def Obligations.NothingReadsIme : Prop :=
  ∀ (n : Nat) (s t : State) (b : Bool), steps n s = .next t → ∃ c : Bool, steps n (s.setIme b) = .next (t.setIme c)

/-! ## The PPU -/

/-- The PPU step. With LCDC bit 7 clear it changes nothing but its frame output and raises nothing (rules R224, R272; the spec's
decision D20). With it set: the countdown, and the transition out of each mode at its end (rules R224 to R229, R236; the
counting order is the spec's decision D26, the interrupts D16): the next mode with its budget, the next line, the equality bit
when the line changes, the interrupts raised, and nothing else but the frame buffer and the frame output. -/
def Obligations.PpuModeTransitions : Prop :=
  ∀ p : Ppu, (p.lcdc.getLsbD 7 = false → p.step = ({ p with frameComplete := false }, 0)) ∧ (p.lcdc.getLsbD 7 = true →
    (2 ≤ p.cnt → p.step = ({ p with cnt := p.cnt - 1, frameComplete := false }, 0)) ∧
    (p.cnt = 1 →
      (p.mode = .oamScan → p.step = ({ p with mode := .drawing, cnt := 43, frameComplete := false }, 0)) ∧
      (p.mode = .drawing → ∃ fb, p.step =
        ({ p with mode := .hblank, cnt := 51, fb := fb, frameComplete := false }, if p.statCfg.getLsbD 0 then 2 else 0)) ∧
      (p.mode = .hblank → p.ly = 143 →
        ∃ irq : Byte, p.step =
          ({ p with mode := .vblank, cnt := 114, ly := 144, lycEq := decide (p.lyc = 144), frameComplete := false }, irq) ∧
          irq.getLsbD 0 = true ∧
          irq.getLsbD 1 = (p.statCfg.getLsbD 1 || (p.statCfg.getLsbD 3 && decide (p.lyc = 144))) ∧ irq.toNat < 4) ∧
      (p.mode = .hblank → p.ly ≠ 143 → p.step =
        ({ p with mode := .oamScan, cnt := 20, ly := p.ly + 1, lycEq := decide (p.lyc = p.ly + 1), frameComplete := false },
          if p.statCfg.getLsbD 2 || (p.statCfg.getLsbD 3 && decide (p.lyc = p.ly + 1)) then 2 else 0)) ∧
      (p.mode = .vblank → p.ly = 153 → p.step =
        ({ p with mode := .oamScan, cnt := 20, ly := 0, lycEq := decide (p.lyc = 0), frameComplete := true },
          if p.statCfg.getLsbD 2 || (p.statCfg.getLsbD 3 && decide (p.lyc = 0)) then 2 else 0)) ∧
      (p.mode = .vblank → p.ly ≠ 153 → p.step =
        ({ p with cnt := 114, ly := p.ly + 1, lycEq := decide (p.lyc = p.ly + 1), frameComplete := false },
          if p.statCfg.getLsbD 3 && decide (p.lyc = p.ly + 1) then 2 else 0))))

/-- The end of a tick (rules R5, R204, R209, R236): the PPU step sees what the CPU step of its tick wrote, its interrupts and
after them the tick's external vector are ORed into IF, whatever IE and `ime` are, and nothing else changes. That the vectors
come from a list in State, 0 when it is used up, is the model's choice (log 5). -/
def Obligations.PpuStepRaisesIntoIf : Prop :=
  ∀ s t : State, cpuStep s = .next t → t.phase = .run →
    step s = .next { t with
      ppu := t.ppu.step.1
      irq := { t.irq with flags := t.irq.flags ||| t.ppu.step.2 ||| t.nextExtIrq.zeroExtend 8 }
      extIrq := t.extIrq.tail }

/-- The frame (rules R224 to R228, R235, R274): from the start of line 0 with the PPU on, after `n` steps the line, the mode and the
countdown are those of the position `n` in a frame of 154 lines of 114 ticks, and the frame output is 1 exactly at every
17556th step. -/
def Obligations.FramePeriod : Prop :=
  ∀ (p : Ppu) (n : Nat), p.lcdc.getLsbD 7 = true → p.mode = .oamScan → p.cnt = 20 → p.ly = 0 →
    let q := Ppu.run n p
    (q.ly.toNat, q.mode, q.cnt) = framePosition n ∧
    (1 ≤ n → (q.frameComplete = true ↔ n % 17556 = 0))

/-- Rendering (rules R226, R230, R231; the layout constants are the spec's decision D21): the step that leaves Drawing writes the
160 pixels of line `ly` by the arithmetic of rule R231 when LCDC bit 0 is set, and every other pixel keeps its byte. -/
def Obligations.RenderedLine : Prop :=
  ∀ (p : Ppu) (y x : Nat), p.lcdc.getLsbD 7 = true → p.mode = .drawing → p.cnt = 1 → p.LineInv → p.fb.wf → y < 144 → x < 160 →
    p.step.1.fb.read (y * 160 + x) =
      if y = p.ly.toNat ∧ p.lcdc.getLsbD 0 = true then pixelOf p y x else p.fb.read (y * 160 + x)

/-- The picture depends on what rule R232 lists and on nothing else (the spec's decision D32): PPUs that agree on it still agree on
it after a PPU step, the frame buffer included. -/
def Obligations.PictureIgnoresOtherRegisters : Prop :=
  ∀ (n : Nat) (p q : Ppu), SamePicture p q → SamePicture (Ppu.run n p) (Ppu.run n q)

/-! ## Devices and reset -/

/-- The opaque devices. The spec's part: reads and writes of the cartridge's ranges (rule R48; 0x0000 to 0x00FF, under the overlay,
are BootOverlay's) and of the timer's (rule R53) go to that device, and nothing else changes (ranges: the spec's decisions D3,
D29). What a device then does is left open by rules R44 and R240, and the two clauses on it
are the model's choice (logs 3 and 4, DESIGN CHOICE), not the spec's: a device of kind `keeps` reads back the bytes written
from an address up and ignores a write below; one of kind `unknown`, once it has been written to, answers its free value (the
cartridge's or the timer's, by the first two clauses) of the contents, the writes and the address. -/
def Obligations.OpaqueDevices : Prop :=
  ∀ (s : State) (a b : Word) (v : Byte),
    ((0x0100 ≤ a.toNat ∧ a.toNat ≤ 0x7FFF) ∨ (0xA000 ≤ a.toNat ∧ a.toNat ≤ 0xBFFF) →
      busRead s a = s.dev.cart.read Config.cartAnswer a ∧
      busWrite s a v = { s with dev := { s.dev with cart := s.dev.cart.write a v } }) ∧
    (0xFF04 ≤ a.toNat ∧ a.toNat ≤ 0xFF07 →
      busRead s a = s.dev.timer.read Config.timerAnswer a ∧
      busWrite s a v = { s with dev := { s.dev with timer := s.dev.timer.write a v } }) ∧
    (∀ (d : Device) (base : Nat) (ans : Memory → List (Word × Byte) → Word → Byte), d.kind = .keeps base → d.cells.wf →
      (base ≤ a.toNat → (d.write a v).read ans a = v) ∧ (a.toNat < base → d.write a v = d) ∧
      (b ≠ a → (d.write a v).read ans b = d.read ans b)) ∧
    (∀ (d : Device) (ans : Memory → List (Word × Byte) → Word → Byte), d.kind = .unknown →
      (d.write a v).read ans b = ans d.cells ((a, v) :: d.log) b)

/-- The reset state (rule R260; every value is the spec's decision D5, D6 or D26, log 1): the registers, the engine, the interrupt
state, the overlay and the PPU; a STAT read gives 0x82 and nothing is pending. -/
def Obligations.ResetState : Prop :=
  let s := State.reset
  (∀ r, s.regs.get8 r = 0) ∧ s.regs.f = 0 ∧ s.regs.sp = 0 ∧ s.regs.pc = 0 ∧ s.phase = .boot ∧ s.fault = none ∧
  s.ctx.mstep = 0 ∧ s.ctx.opcode = 0 ∧ s.ctx.cb = false ∧ s.ctx.lat8 = 0 ∧ s.ctx.lat16 = 0 ∧ s.irq.ime = false ∧ s.irq.flags = 0 ∧ s.irq.enable = 0 ∧ s.pending = 0 ∧ s.bootActive = true ∧
  s.ppu.mode = .oamScan ∧ s.ppu.cnt = 20 ∧ s.ppu.ly = 0 ∧ s.ppu.lyc = 0 ∧ s.ppu.lycEq = false ∧ s.ppu.statCfg = 0 ∧
  busRead s 0xFF41 = 0x82 ∧ s.ppu.lcdc = 0 ∧ s.ppu.scy = 0 ∧ s.ppu.scx = 0 ∧ s.ppu.wy = 0 ∧ s.ppu.wx = 0 ∧ s.ppu.bgp = 0 ∧
  s.ppu.obp0 = 0 ∧ s.ppu.obp1 = 0 ∧ (∀ k, s.ppu.vram.read k = 0) ∧ (∀ k, s.ppu.oam.read k = 0) ∧ (∀ k, s.ppu.fb.read k = 0) ∧
  s.ppu.frameComplete = false
end

