-- ==== Sys2Proof/Laws/Memory.lean ====
section
/-!
SUPPORT. The laws of a block of bytes: read after write, other offsets untouched, the canonical form kept, and what an
opaque device's write leaves in canonical form.
-/

namespace Sys2Proof.Machine

@[simp] theorem Memory.read_nil (a : Nat) : Memory.read [] a = unlistedByte := rfl

/-- An offset that is not listed reads as the unlisted byte. -/
theorem Memory.read_of_not_listed (m : Memory) (a : Nat) (h : ∀ c ∈ m, c.1 ≠ a) : m.read a = unlistedByte := by
  induction m with
  | nil => rfl
  | cons c m ih =>
    obtain ⟨k, v⟩ := c
    have hk : a ≠ k := fun e => h (k, v) (by simp) e.symm
    simp [Memory.read, hk, ih (fun c hc => h c (by simp [hc]))]

/-- A write leaves every other offset as it was; no canonical form is needed. -/
theorem Memory.read_write_ne (m : Memory) {a b : Nat} (v : Byte) (h : b ≠ a) : (m.write a v).read b = m.read b := by
  induction m with
  | nil => simp only [Memory.write]; split <;> simp [Memory.read, h]
  | cons c m ih =>
    obtain ⟨k, w⟩ := c
    simp only [Memory.write]
    split
    · split <;> simp [Memory.read, h]
    · split
      · rename_i hk; subst hk
        split <;> simp [Memory.read, h]
      · simp [Memory.read, ih]

/-- In canonical form the byte written reads back. -/
theorem Memory.read_write_same (m : Memory) (a : Nat) (v : Byte) (h : m.wf) : (m.write a v).read a = v := by
  induction m with
  | nil => simp only [Memory.write]; split <;> simp_all [Memory.read]
  | cons c m ih =>
    obtain ⟨k, w⟩ := c
    have hlt : ∀ c ∈ m, k < c.1 := (List.pairwise_cons.1 h.1).1
    have hm : Memory.wf m := ⟨(List.pairwise_cons.1 h.1).2, fun c hc => h.2 c (by simp [hc])⟩
    simp only [Memory.write]
    split
    · rename_i hak
      split
      · rename_i hv
        rw [hv]
        refine Memory.read_of_not_listed _ _ (fun c hc => ?_)
        rcases List.mem_cons.1 hc with rfl | hc
        · exact (Nat.ne_of_lt hak).symm
        · exact (Nat.ne_of_lt (Nat.lt_trans hak (hlt c hc))).symm
      · simp [Memory.read]
    · split
      · rename_i hak; subst hak
        split
        · rename_i hv
          rw [hv]
          exact Memory.read_of_not_listed _ _ (fun c hc => (Nat.ne_of_lt (hlt c hc)).symm)
        · simp [Memory.read]
      · rename_i hak
        simp [Memory.read, hak, ih hm]

/-- Every entry after a write is the byte written or an entry there before. -/
theorem Memory.mem_write (m : Memory) (a : Nat) (v : Byte) {c : Host.Cell} (h : c ∈ m.write a v) :
    (c = (a, v) ∧ v ≠ unlistedByte) ∨ c ∈ m := by
  induction m with
  | nil => simp only [Memory.write] at h; split at h <;> simp_all
  | cons d m ih =>
    obtain ⟨k, w⟩ := d
    simp only [Memory.write] at h
    split at h
    · split at h
      · exact .inr h
      · rename_i hv
        rcases List.mem_cons.1 h with rfl | h
        · exact .inl ⟨rfl, hv⟩
        · exact .inr h
    · split at h
      · split at h
        · exact .inr (List.mem_cons_of_mem _ h)
        · rename_i hv
          rcases List.mem_cons.1 h with rfl | h
          · exact .inl ⟨rfl, hv⟩
          · exact .inr (List.mem_cons_of_mem _ h)
      · rcases List.mem_cons.1 h with rfl | h
        · exact .inr (by simp)
        · exact (ih h).imp id (List.mem_cons_of_mem _)

/-- A write keeps the canonical form. -/
theorem Memory.wf_write (m : Memory) (a : Nat) (v : Byte) (h : m.wf) : (m.write a v).wf := by
  refine ⟨?_, fun c hc => ?_⟩
  · induction m with
    | nil => simp only [Memory.write]; split <;> simp
    | cons d m ih =>
      obtain ⟨k, w⟩ := d
      have hlt : ∀ c ∈ m, k < c.1 := (List.pairwise_cons.1 h.1).1
      have hm : Memory.wf m := ⟨(List.pairwise_cons.1 h.1).2, fun c hc => h.2 c (by simp [hc])⟩
      simp only [Memory.write]
      split
      · rename_i hak
        split
        · exact h.1
        · refine List.pairwise_cons.2 ⟨fun c hc => ?_, h.1⟩
          rcases List.mem_cons.1 hc with rfl | hc
          · exact hak
          · exact Nat.lt_trans hak (hlt c hc)
      · rename_i hnlt
        split
        · rename_i hak; subst hak
          split
          · exact hm.1
          · exact List.pairwise_cons.2 ⟨hlt, hm.1⟩
        · rename_i hne
          refine List.pairwise_cons.2 ⟨fun c hc => ?_, ih hm⟩
          rcases Memory.mem_write m a v hc with ⟨rfl, -⟩ | hc
          · show k < a; omega
          · exact hlt c hc
  · rcases Memory.mem_write m a v hc with ⟨rfl, hv⟩ | hc
    · exact hv
    · exact h.2 c hc

/-- A write below a bound keeps every offset below it. -/
theorem Memory.below_write {m : Memory} {a n : Nat} (v : Byte) (h : m.below n) (ha : a < n) : (m.write a v).below n := by
  intro c hc
  rcases Memory.mem_write m a v hc with ⟨rfl, -⟩ | hc
  · exact ha
  · exact h c hc

/-- An opaque device's contents stay in canonical form and in bounds. -/
theorem Device.wf_write (d : Device) (a : Word) (v : Byte) (n : Nat) (ha : a.toNat < n)
    (h : d.cells.wf ∧ d.cells.below n) : (d.write a v).cells.wf ∧ (d.write a v).cells.below n := by
  unfold Device.write
  split
  · split
    · exact ⟨Memory.wf_write _ _ _ h.1, Memory.below_write _ h.2 ha⟩
    · exact h
  · exact h

end Sys2Proof.Machine
end

