-- ==== Sys2Proof/Laws/State.lean ====
section
/-!
SUPPORT. What each update of the state does to each of its parts, one lemma per part and update, so that no later proof
unfolds a record update. Then the accessors of the register file.
-/

namespace Sys2Proof.Machine

/-! ## Parts of the state -/

@[simp] theorem set8_regs (s : State) (r : Reg8) (v : Byte) : (s.set8 r v).regs = s.regs.set8 r v := rfl
@[simp] theorem set8_ctx (s : State) (r : Reg8) (v : Byte) : (s.set8 r v).ctx = s.ctx := rfl
@[simp] theorem set8_phase (s : State) (r : Reg8) (v : Byte) : (s.set8 r v).phase = s.phase := rfl
@[simp] theorem set8_fault (s : State) (r : Reg8) (v : Byte) : (s.set8 r v).fault = s.fault := rfl
@[simp] theorem set8_irq (s : State) (r : Reg8) (v : Byte) : (s.set8 r v).irq = s.irq := rfl
@[simp] theorem set8_bootActive (s : State) (r : Reg8) (v : Byte) : (s.set8 r v).bootActive = s.bootActive := rfl
@[simp] theorem set8_ppu (s : State) (r : Reg8) (v : Byte) : (s.set8 r v).ppu = s.ppu := rfl
@[simp] theorem set8_dev (s : State) (r : Reg8) (v : Byte) : (s.set8 r v).dev = s.dev := rfl
@[simp] theorem set8_extIrq (s : State) (r : Reg8) (v : Byte) : (s.set8 r v).extIrq = s.extIrq := rfl

@[simp] theorem set16_regs (s : State) (p : Reg16) (v : Word) : (s.set16 p v).regs = s.regs.set16 p v := rfl
@[simp] theorem set16_ctx (s : State) (p : Reg16) (v : Word) : (s.set16 p v).ctx = s.ctx := rfl
@[simp] theorem set16_phase (s : State) (p : Reg16) (v : Word) : (s.set16 p v).phase = s.phase := rfl
@[simp] theorem set16_fault (s : State) (p : Reg16) (v : Word) : (s.set16 p v).fault = s.fault := rfl
@[simp] theorem set16_irq (s : State) (p : Reg16) (v : Word) : (s.set16 p v).irq = s.irq := rfl
@[simp] theorem set16_bootActive (s : State) (p : Reg16) (v : Word) : (s.set16 p v).bootActive = s.bootActive := rfl
@[simp] theorem set16_ppu (s : State) (p : Reg16) (v : Word) : (s.set16 p v).ppu = s.ppu := rfl
@[simp] theorem set16_dev (s : State) (p : Reg16) (v : Word) : (s.set16 p v).dev = s.dev := rfl
@[simp] theorem set16_extIrq (s : State) (p : Reg16) (v : Word) : (s.set16 p v).extIrq = s.extIrq := rfl

@[simp] theorem setF_regs (s : State) (v : Byte) : (s.setF v).regs = { s.regs with f := v } := rfl
@[simp] theorem setF_ctx (s : State) (v : Byte) : (s.setF v).ctx = s.ctx := rfl
@[simp] theorem setF_phase (s : State) (v : Byte) : (s.setF v).phase = s.phase := rfl
@[simp] theorem setF_fault (s : State) (v : Byte) : (s.setF v).fault = s.fault := rfl
@[simp] theorem setF_irq (s : State) (v : Byte) : (s.setF v).irq = s.irq := rfl
@[simp] theorem setF_bootActive (s : State) (v : Byte) : (s.setF v).bootActive = s.bootActive := rfl
@[simp] theorem setF_ppu (s : State) (v : Byte) : (s.setF v).ppu = s.ppu := rfl
@[simp] theorem setF_dev (s : State) (v : Byte) : (s.setF v).dev = s.dev := rfl
@[simp] theorem setF_extIrq (s : State) (v : Byte) : (s.setF v).extIrq = s.extIrq := rfl

@[simp] theorem setPc_regs (s : State) (v : Word) : (s.setPc v).regs = { s.regs with pc := v } := rfl
@[simp] theorem setPc_ctx (s : State) (v : Word) : (s.setPc v).ctx = s.ctx := rfl
@[simp] theorem setPc_phase (s : State) (v : Word) : (s.setPc v).phase = s.phase := rfl
@[simp] theorem setPc_fault (s : State) (v : Word) : (s.setPc v).fault = s.fault := rfl
@[simp] theorem setPc_irq (s : State) (v : Word) : (s.setPc v).irq = s.irq := rfl
@[simp] theorem setPc_bootActive (s : State) (v : Word) : (s.setPc v).bootActive = s.bootActive := rfl
@[simp] theorem setPc_ppu (s : State) (v : Word) : (s.setPc v).ppu = s.ppu := rfl
@[simp] theorem setPc_dev (s : State) (v : Word) : (s.setPc v).dev = s.dev := rfl
@[simp] theorem setPc_extIrq (s : State) (v : Word) : (s.setPc v).extIrq = s.extIrq := rfl

@[simp] theorem setSp_regs (s : State) (v : Word) : (s.setSp v).regs = { s.regs with sp := v } := rfl
@[simp] theorem setSp_ctx (s : State) (v : Word) : (s.setSp v).ctx = s.ctx := rfl
@[simp] theorem setSp_phase (s : State) (v : Word) : (s.setSp v).phase = s.phase := rfl
@[simp] theorem setSp_fault (s : State) (v : Word) : (s.setSp v).fault = s.fault := rfl
@[simp] theorem setSp_irq (s : State) (v : Word) : (s.setSp v).irq = s.irq := rfl
@[simp] theorem setSp_bootActive (s : State) (v : Word) : (s.setSp v).bootActive = s.bootActive := rfl
@[simp] theorem setSp_ppu (s : State) (v : Word) : (s.setSp v).ppu = s.ppu := rfl
@[simp] theorem setSp_dev (s : State) (v : Word) : (s.setSp v).dev = s.dev := rfl
@[simp] theorem setSp_extIrq (s : State) (v : Word) : (s.setSp v).extIrq = s.extIrq := rfl

@[simp] theorem setLat8_regs (s : State) (v : Byte) : (s.setLat8 v).regs = s.regs := rfl
@[simp] theorem setLat8_ctx (s : State) (v : Byte) : (s.setLat8 v).ctx = { s.ctx with lat8 := v } := rfl
@[simp] theorem setLat8_phase (s : State) (v : Byte) : (s.setLat8 v).phase = s.phase := rfl
@[simp] theorem setLat8_fault (s : State) (v : Byte) : (s.setLat8 v).fault = s.fault := rfl
@[simp] theorem setLat8_irq (s : State) (v : Byte) : (s.setLat8 v).irq = s.irq := rfl
@[simp] theorem setLat8_bootActive (s : State) (v : Byte) : (s.setLat8 v).bootActive = s.bootActive := rfl
@[simp] theorem setLat8_ppu (s : State) (v : Byte) : (s.setLat8 v).ppu = s.ppu := rfl
@[simp] theorem setLat8_dev (s : State) (v : Byte) : (s.setLat8 v).dev = s.dev := rfl
@[simp] theorem setLat8_extIrq (s : State) (v : Byte) : (s.setLat8 v).extIrq = s.extIrq := rfl

@[simp] theorem setLat16Lo_regs (s : State) (v : Byte) : (s.setLat16Lo v).regs = s.regs := rfl
@[simp] theorem setLat16Lo_ctx (s : State) (v : Byte) : (s.setLat16Lo v).ctx = { s.ctx with lat16 := joinBytes (hiByte s.ctx.lat16) v } := rfl
@[simp] theorem setLat16Lo_phase (s : State) (v : Byte) : (s.setLat16Lo v).phase = s.phase := rfl
@[simp] theorem setLat16Lo_fault (s : State) (v : Byte) : (s.setLat16Lo v).fault = s.fault := rfl
@[simp] theorem setLat16Lo_irq (s : State) (v : Byte) : (s.setLat16Lo v).irq = s.irq := rfl
@[simp] theorem setLat16Lo_bootActive (s : State) (v : Byte) : (s.setLat16Lo v).bootActive = s.bootActive := rfl
@[simp] theorem setLat16Lo_ppu (s : State) (v : Byte) : (s.setLat16Lo v).ppu = s.ppu := rfl
@[simp] theorem setLat16Lo_dev (s : State) (v : Byte) : (s.setLat16Lo v).dev = s.dev := rfl
@[simp] theorem setLat16Lo_extIrq (s : State) (v : Byte) : (s.setLat16Lo v).extIrq = s.extIrq := rfl

@[simp] theorem setLat16Hi_regs (s : State) (v : Byte) : (s.setLat16Hi v).regs = s.regs := rfl
@[simp] theorem setLat16Hi_ctx (s : State) (v : Byte) : (s.setLat16Hi v).ctx = { s.ctx with lat16 := joinBytes v (loByte s.ctx.lat16) } := rfl
@[simp] theorem setLat16Hi_phase (s : State) (v : Byte) : (s.setLat16Hi v).phase = s.phase := rfl
@[simp] theorem setLat16Hi_fault (s : State) (v : Byte) : (s.setLat16Hi v).fault = s.fault := rfl
@[simp] theorem setLat16Hi_irq (s : State) (v : Byte) : (s.setLat16Hi v).irq = s.irq := rfl
@[simp] theorem setLat16Hi_bootActive (s : State) (v : Byte) : (s.setLat16Hi v).bootActive = s.bootActive := rfl
@[simp] theorem setLat16Hi_ppu (s : State) (v : Byte) : (s.setLat16Hi v).ppu = s.ppu := rfl
@[simp] theorem setLat16Hi_dev (s : State) (v : Byte) : (s.setLat16Hi v).dev = s.dev := rfl
@[simp] theorem setLat16Hi_extIrq (s : State) (v : Byte) : (s.setLat16Hi v).extIrq = s.extIrq := rfl

@[simp] theorem advance_regs (s : State) : (s.advance).regs = s.regs := rfl
@[simp] theorem advance_ctx (s : State) : (s.advance).ctx = { s.ctx with mstep := s.ctx.mstep + 1 } := rfl
@[simp] theorem advance_phase (s : State) : (s.advance).phase = s.phase := rfl
@[simp] theorem advance_fault (s : State) : (s.advance).fault = s.fault := rfl
@[simp] theorem advance_irq (s : State) : (s.advance).irq = s.irq := rfl
@[simp] theorem advance_bootActive (s : State) : (s.advance).bootActive = s.bootActive := rfl
@[simp] theorem advance_ppu (s : State) : (s.advance).ppu = s.ppu := rfl
@[simp] theorem advance_dev (s : State) : (s.advance).dev = s.dev := rfl
@[simp] theorem advance_extIrq (s : State) : (s.advance).extIrq = s.extIrq := rfl

@[simp] theorem fetch_regs (s : State) : (fetch s).regs = { s.regs with pc := s.regs.pc + 1 } := rfl
@[simp] theorem fetch_ctx (s : State) : (fetch s).ctx = { s.ctx with opcode := busRead s s.regs.pc, cb := false, mstep := 0 } := rfl
@[simp] theorem fetch_phase (s : State) : (fetch s).phase = s.phase := rfl
@[simp] theorem fetch_fault (s : State) : (fetch s).fault = s.fault := rfl
@[simp] theorem fetch_irq (s : State) : (fetch s).irq = s.irq := rfl
@[simp] theorem fetch_bootActive (s : State) : (fetch s).bootActive = s.bootActive := rfl
@[simp] theorem fetch_ppu (s : State) : (fetch s).ppu = s.ppu := rfl
@[simp] theorem fetch_dev (s : State) : (fetch s).dev = s.dev := rfl
@[simp] theorem fetch_extIrq (s : State) : (fetch s).extIrq = s.extIrq := rfl

@[simp] theorem setIme_regs (s : State) (b : Bool) : (s.setIme b).regs = s.regs := rfl
@[simp] theorem setIme_ctx (s : State) (b : Bool) : (s.setIme b).ctx = s.ctx := rfl
@[simp] theorem setIme_phase (s : State) (b : Bool) : (s.setIme b).phase = s.phase := rfl
@[simp] theorem setIme_fault (s : State) (b : Bool) : (s.setIme b).fault = s.fault := rfl
@[simp] theorem setIme_irq (s : State) (b : Bool) : (s.setIme b).irq = { s.irq with ime := b } := rfl
@[simp] theorem setIme_bootActive (s : State) (b : Bool) : (s.setIme b).bootActive = s.bootActive := rfl
@[simp] theorem setIme_ppu (s : State) (b : Bool) : (s.setIme b).ppu = s.ppu := rfl
@[simp] theorem setIme_dev (s : State) (b : Bool) : (s.setIme b).dev = s.dev := rfl
@[simp] theorem setIme_extIrq (s : State) (b : Bool) : (s.setIme b).extIrq = s.extIrq := rfl

@[simp] theorem raiseIrq_regs (s : State) (m : Byte) : (raiseIrq s m).regs = s.regs := rfl
@[simp] theorem raiseIrq_ctx (s : State) (m : Byte) : (raiseIrq s m).ctx = s.ctx := rfl
@[simp] theorem raiseIrq_phase (s : State) (m : Byte) : (raiseIrq s m).phase = s.phase := rfl
@[simp] theorem raiseIrq_fault (s : State) (m : Byte) : (raiseIrq s m).fault = s.fault := rfl
@[simp] theorem raiseIrq_irq (s : State) (m : Byte) : (raiseIrq s m).irq = { s.irq with flags := s.irq.flags ||| m } := rfl
@[simp] theorem raiseIrq_bootActive (s : State) (m : Byte) : (raiseIrq s m).bootActive = s.bootActive := rfl
@[simp] theorem raiseIrq_ppu (s : State) (m : Byte) : (raiseIrq s m).ppu = s.ppu := rfl
@[simp] theorem raiseIrq_dev (s : State) (m : Byte) : (raiseIrq s m).dev = s.dev := rfl
@[simp] theorem raiseIrq_extIrq (s : State) (m : Byte) : (raiseIrq s m).extIrq = s.extIrq := rfl

@[simp] theorem raiseUnimplemented_regs (s : State) : (raiseUnimplemented s).regs = s.regs := rfl
@[simp] theorem raiseUnimplemented_ctx (s : State) : (raiseUnimplemented s).ctx = s.ctx := rfl
@[simp] theorem raiseUnimplemented_phase (s : State) : (raiseUnimplemented s).phase = .faulted := rfl
@[simp] theorem raiseUnimplemented_fault (s : State) : (raiseUnimplemented s).fault = some { cb := s.ctx.cb, opcode := s.ctx.opcode, addr := s.regs.pc - 1 } := rfl
@[simp] theorem raiseUnimplemented_irq (s : State) : (raiseUnimplemented s).irq = s.irq := rfl
@[simp] theorem raiseUnimplemented_bootActive (s : State) : (raiseUnimplemented s).bootActive = s.bootActive := rfl
@[simp] theorem raiseUnimplemented_ppu (s : State) : (raiseUnimplemented s).ppu = s.ppu := rfl
@[simp] theorem raiseUnimplemented_dev (s : State) : (raiseUnimplemented s).dev = s.dev := rfl
@[simp] theorem raiseUnimplemented_extIrq (s : State) : (raiseUnimplemented s).extIrq = s.extIrq := rfl

@[simp] theorem bootFetch_regs (s : State) : (bootFetch s).regs = { s.regs with pc := s.regs.pc + 1 } := rfl
@[simp] theorem bootFetch_ctx (s : State) : (bootFetch s).ctx = { s.ctx with opcode := busRead s s.regs.pc, cb := false, mstep := 0 } := rfl
@[simp] theorem bootFetch_phase (s : State) : (bootFetch s).phase = .run := rfl
@[simp] theorem bootFetch_fault (s : State) : (bootFetch s).fault = s.fault := rfl
@[simp] theorem bootFetch_irq (s : State) : (bootFetch s).irq = s.irq := rfl
@[simp] theorem bootFetch_bootActive (s : State) : (bootFetch s).bootActive = s.bootActive := rfl
@[simp] theorem bootFetch_ppu (s : State) : (bootFetch s).ppu = s.ppu := rfl
@[simp] theorem bootFetch_dev (s : State) : (bootFetch s).dev = s.dev := rfl
@[simp] theorem bootFetch_extIrq (s : State) : (bootFetch s).extIrq = s.extIrq := rfl

@[simp] theorem ppuStep_regs (s : State) : (ppuStep s).regs = s.regs := rfl
@[simp] theorem ppuStep_ctx (s : State) : (ppuStep s).ctx = s.ctx := rfl
@[simp] theorem ppuStep_phase (s : State) : (ppuStep s).phase = s.phase := rfl
@[simp] theorem ppuStep_fault (s : State) : (ppuStep s).fault = s.fault := rfl
@[simp] theorem ppuStep_irq (s : State) : (ppuStep s).irq = { s.irq with flags := s.irq.flags ||| (if Params.ppuIrq then s.ppu.step.2 else 0) } := rfl
@[simp] theorem ppuStep_bootActive (s : State) : (ppuStep s).bootActive = s.bootActive := rfl
@[simp] theorem ppuStep_ppu (s : State) : (ppuStep s).ppu = s.ppu.step.1 := rfl
@[simp] theorem ppuStep_dev (s : State) : (ppuStep s).dev = s.dev := rfl
@[simp] theorem ppuStep_extIrq (s : State) : (ppuStep s).extIrq = s.extIrq := rfl

/-! ## The register file -/

@[simp] theorem Regs.set8_f (g : Regs) (r : Reg8) (v : Byte) : (g.set8 r v).f = g.f := by cases r <;> rfl
@[simp] theorem Regs.set8_sp (g : Regs) (r : Reg8) (v : Byte) : (g.set8 r v).sp = g.sp := by cases r <;> rfl
@[simp] theorem Regs.set8_pc (g : Regs) (r : Reg8) (v : Byte) : (g.set8 r v).pc = g.pc := by cases r <;> rfl
@[simp] theorem Regs.set16_pc (g : Regs) (p : Reg16) (v : Word) : (g.set16 p v).pc = g.pc := by cases p <;> rfl

/-- A register reads as written. -/
@[simp] theorem Regs.get8_set8_same (g : Regs) (r : Reg8) (v : Byte) : (g.set8 r v).get8 r = v := by
  cases r <;> rfl

/-- The other registers keep their values. -/
theorem Regs.get8_set8_ne (g : Regs) {r q : Reg8} (v : Byte) (h : q ≠ r) : (g.set8 r v).get8 q = g.get8 q := by
  cases r <;> cases q <;> first | rfl | exact absurd rfl h

@[simp] theorem Regs.get8_withF (g : Regs) (r : Reg8) (v : Byte) : Regs.get8 { g with f := v } r = g.get8 r := by
  cases r <;> rfl
@[simp] theorem Regs.get8_withSp (g : Regs) (r : Reg8) (v : Word) : Regs.get8 { g with sp := v } r = g.get8 r := by
  cases r <;> rfl
@[simp] theorem Regs.get8_withPc (g : Regs) (r : Reg8) (v : Word) : Regs.get8 { g with pc := v } r = g.get8 r := by
  cases r <;> rfl

/-- The halves of a pair are its two registers. -/
@[simp] theorem hiByte_joinBytes (hi lo : Byte) : hiByte (joinBytes hi lo) = hi := by
  apply BitVec.eq_of_getLsbD_eq
  intro i h
  have hiBit : (joinBytes hi lo).getLsbD (8 + i) = hi.getLsbD i := by
    refine (BitVec.getLsbD_append (x := hi) (y := lo) (i := 8 + i)).trans ?_
    simp
  simpa [hiByte, h] using hiBit

@[simp] theorem loByte_joinBytes (hi lo : Byte) : loByte (joinBytes hi lo) = lo := by
  apply BitVec.eq_of_getLsbD_eq
  intro i h
  have loBit : (joinBytes hi lo).getLsbD i = lo.getLsbD i := by
    refine (BitVec.getLsbD_append (x := hi) (y := lo) (i := i)).trans ?_
    simp [h]
  simpa [loByte, h] using loBit

/-- A 16-bit value is its two bytes. -/
@[simp] theorem joinBytes_hiByte_loByte (w : Word) : joinBytes (hiByte w) (loByte w) = w := by
  apply BitVec.eq_of_getLsbD_eq
  intro i h
  refine (BitVec.getLsbD_append (x := hiByte w) (y := loByte w) (i := i)).trans ?_
  simp only [hiByte, loByte, BitVec.getLsbD_extractLsb']
  by_cases h8 : i < 8
  · simp [h8]
  · have : i - 8 < 8 := by omega
    simp [h8, this, Nat.add_sub_cancel' (Nat.le_of_not_lt h8)]

/-- A pair other than AF reads as written (rules R12, R13). -/
theorem Regs.get16_set16_same (g : Regs) {p : Reg16} (v : Word) (h : p ≠ .af) : (g.set16 p v).get16 p = v := by
  cases p <;> first | exact absurd rfl h | exact joinBytes_hiByte_loByte v | rfl

end Sys2Proof.Machine
end

