-- ==== Sys2Proof/Laws/Bus.lean ====
section
/-!
SUPPORT. The bus: what a write leaves alone, that a read depends on the bus state only, and that a write keeps every memory
in canonical form.
-/

namespace Sys2Proof.Machine

/-- The parts of a state the bus dispatcher reads agree. -/
structure BusSame (s t : State) : Prop where
  ppu : t.ppu = s.ppu
  dev : t.dev = s.dev
  bootActive : t.bootActive = s.bootActive
  flags : t.irq.flags = s.irq.flags
  enable : t.irq.enable = s.irq.enable

theorem BusSame.refl (s : State) : BusSame s s := ⟨rfl, rfl, rfl, rfl, rfl⟩

theorem BusSame.trans {s t u : State} (h : BusSame s t) (k : BusSame t u) : BusSame s u :=
  ⟨k.ppu.trans h.ppu, k.dev.trans h.dev, k.bootActive.trans h.bootActive, k.flags.trans h.flags,
    k.enable.trans h.enable⟩

/-- States the dispatcher cannot tell apart read alike. -/
theorem BusSame.busRead {s t : State} (h : BusSame s t) (a : Word) : busRead t a = busRead s a := by
  simp only [Machine.busRead, State.target, h.bootActive]
  cases decodeAddr Params.echoRam s.bootActive a <;> simp only [readTarget, h.ppu, h.dev, h.flags, h.enable]

/-- They change alike under a write. -/
theorem BusSame.busWrite {s t : State} (h : BusSame s t) (a : Word) (v : Byte) :
    BusSame (busWrite s a v) (busWrite t a v) := by
  obtain ⟨hp, hd, hb, hf, he⟩ := h
  simp only [Machine.busWrite, State.target, hb]
  cases decodeAddr Params.echoRam s.bootActive a <;>
    simp only [writeTarget, hp, hd] <;> (try split) <;> constructor <;> simp only [hp, hd, hb, hf, he]

@[simp] theorem busWrite_regs (s : State) (a : Word) (v : Byte) : (busWrite s a v).regs = s.regs := by
  unfold busWrite; cases s.target a <;> simp only [writeTarget] <;> (try split) <;> rfl
@[simp] theorem busWrite_ctx (s : State) (a : Word) (v : Byte) : (busWrite s a v).ctx = s.ctx := by
  unfold busWrite; cases s.target a <;> simp only [writeTarget] <;> (try split) <;> rfl
@[simp] theorem busWrite_phase (s : State) (a : Word) (v : Byte) : (busWrite s a v).phase = s.phase := by
  unfold busWrite; cases s.target a <;> simp only [writeTarget] <;> (try split) <;> rfl
@[simp] theorem busWrite_fault (s : State) (a : Word) (v : Byte) : (busWrite s a v).fault = s.fault := by
  unfold busWrite; cases s.target a <;> simp only [writeTarget] <;> (try split) <;> rfl
@[simp] theorem busWrite_extIrq (s : State) (a : Word) (v : Byte) : (busWrite s a v).extIrq = s.extIrq := by
  unfold busWrite; cases s.target a <;> simp only [writeTarget] <;> (try split) <;> rfl
@[simp] theorem busWrite_ime (s : State) (a : Word) (v : Byte) : (busWrite s a v).irq.ime = s.irq.ime := by
  unfold busWrite; cases s.target a <;> simp only [writeTarget] <;> (try split) <;> rfl

/-- A write never touches what only the PPU step writes: mode, countdown, line, equality bit, frame buffer, frame output. -/
theorem busWrite_ppuOwned (s : State) (a : Word) (v : Byte) :
    (busWrite s a v).ppu.mode = s.ppu.mode ∧ (busWrite s a v).ppu.cnt = s.ppu.cnt ∧
    (busWrite s a v).ppu.ly = s.ppu.ly ∧ (busWrite s a v).ppu.lycEq = s.ppu.lycEq ∧
    (busWrite s a v).ppu.fb = s.ppu.fb ∧ (busWrite s a v).ppu.frameComplete = s.ppu.frameComplete := by
  unfold busWrite
  cases s.target a with
  | ppuReg r => cases r <;> exact ⟨rfl, rfl, rfl, rfl, rfl, rfl⟩
  | vram off | oam off => simp only [writeTarget]; split <;> exact ⟨rfl, rfl, rfl, rfl, rfl, rfl⟩
  | bootSwitch => simp only [writeTarget]; split <;> exact ⟨rfl, rfl, rfl, rfl, rfl, rfl⟩
  | _ => exact ⟨rfl, rfl, rfl, rfl, rfl, rfl⟩

/-- The registers and the engine are not on the bus: a write commutes with changing them. -/
theorem busWrite_withCpu (s : State) (a : Word) (v : Byte) (g : Regs) (c : Ctx) :
    busWrite { s with regs := g, ctx := c } a v = { busWrite s a v with regs := g, ctx := c } := by
  have ht : State.target { s with regs := g, ctx := c } a = s.target a := rfl
  simp only [busWrite, ht]
  cases s.target a <;> simp only [writeTarget] <;> (try split) <;> rfl

/-- The same of the registers alone. -/
theorem busWrite_withRegs (s : State) (a : Word) (v : Byte) (g : Regs) :
    busWrite { s with regs := g } a v = { busWrite s a v with regs := g } := by
  have ht : State.target { s with regs := g } a = s.target a := rfl
  simp only [busWrite, ht]
  cases s.target a <;> simp only [writeTarget] <;> (try split) <;> rfl

/-- A byte pushed: the byte below SP is written and SP addresses it (rule R183). -/
theorem pushByte_eq (s : State) (v : Byte) :
    pushByte s v = { busWrite s (s.regs.sp - 1) v with regs := { s.regs with sp := s.regs.sp - 1 } } :=
  busWrite_withRegs s _ v _

/-- A store through HL after F has been written (rules R151, R153, R166). -/
theorem writeInd_hl_setF (s : State) (v f : Byte) :
    writeInd .hl v (s.setF f) = { busWrite s (indAddr s .hl) v with regs := { s.regs with f := f } } :=
  busWrite_withRegs s _ v _

/-- Nor does a read see them. -/
@[simp] theorem busRead_withCpu (s : State) (a : Word) (g : Regs) (c : Ctx) :
    busRead { s with regs := g, ctx := c } a = busRead s a := BusSame.busRead ⟨rfl, rfl, rfl, rfl, rfl⟩ a

theorem busSame_indUpdate (s : State) (k : Ind) : BusSame s (indUpdate s k) := by
  cases k <;> exact ⟨rfl, rfl, rfl, rfl, rfl⟩

/-- What a target's offset is bounded by (rule R45). -/
def Target.inRange : Target → Prop
  | .bootRom off => off < Config.bootRomSize
  | .cart addr => addr.toNat < 0xC000
  | .vram off => off < Config.vramSize
  | .wram off => off < Config.wramSize
  | .oam off => off < Config.oamSize
  | .timer addr => addr.toNat < 0xFF08
  | .hram off => off < Config.hramSize
  | .intFlags | .ppuReg _ | .bootSwitch | .intEnable | .unmapped => True

theorem ppuRegAt_inRange (n : Nat) : (ppuRegAt n).inRange := by
  unfold ppuRegAt; split <;> trivial

theorem Target.inRange_ite {c : Prop} [Decidable c] {x y : Target} (hx : c → x.inRange) (hy : ¬c → y.inRange) :
    (if c then x else y).inRange := by
  split
  · exact hx ‹_›
  · exact hy ‹_›

/-- Every address decodes to an offset inside its target (rules R45, R46). -/
theorem decodeAddr_inRange (echo boot : Bool) (a : Word) : (decodeAddr echo boot a).inRange := by
  unfold decodeAddr
  refine Target.inRange_ite (fun _ => Nat.mod_lt _ (by decide)) fun _ => ?_
  refine Target.inRange_ite (fun h => by show a.toNat < 0xC000; omega) fun _ => ?_
  refine Target.inRange_ite (fun _ => Nat.mod_lt _ (by decide)) fun _ => ?_
  refine Target.inRange_ite (fun h => by show a.toNat < 0xC000; omega) fun _ => ?_
  refine Target.inRange_ite (fun _ => Nat.mod_lt _ (by decide)) fun _ => ?_
  refine Target.inRange_ite (fun _ => Target.inRange_ite (fun _ => Nat.mod_lt _ (by decide)) fun _ => trivial) fun hEcho => ?_
  refine Target.inRange_ite (fun h => ?_) fun _ => ?_
  · show a.toNat % 0x100 < 160
    omega
  refine Target.inRange_ite (fun h => by show a.toNat < 0xFF08; omega) fun _ => ?_
  refine Target.inRange_ite (fun _ => trivial) fun _ => ?_
  refine Target.inRange_ite (fun _ => ?_) fun _ => ?_
  · generalize a.toNat - 0xFF40 = n
    exact ppuRegAt_inRange n
  refine Target.inRange_ite (fun _ => trivial) fun _ => ?_
  refine Target.inRange_ite (fun h => ?_) fun _ => ?_
  · show a.toNat % 0x80 < 127
    omega
  exact Target.inRange_ite (fun _ => trivial) fun _ => trivial

/-! ## What each range of addresses selects (rules R46, R47 to R57) -/

theorem target_bootRom (s : State) {a : Word} (h : a.toNat ≤ 0xFF) (hb : s.bootActive = true) :
    s.target a = .bootRom a.toNat := by
  simp only [State.target, decodeAddr]
  rw [if_pos ⟨h, hb⟩, Nat.mod_eq_of_lt (by omega)]

theorem target_cart_low (s : State) {a : Word} (h : a.toNat ≤ 0x7FFF) (hb : s.bootActive = false ∨ 0xFF < a.toNat) :
    s.target a = .cart a := by
  simp only [State.target, decodeAddr]
  rw [if_neg, if_pos h]
  rintro ⟨h1, h2⟩
  rcases hb with hb | hb
  · rw [hb] at h2; cases h2
  · omega

theorem target_vram (s : State) {a : Word} (h : 0x8000 ≤ a.toNat ∧ a.toNat ≤ 0x9FFF) :
    s.target a = .vram (a.toNat - 0x8000) := by
  simp only [State.target, decodeAddr]
  rw [if_neg (by omega), if_neg (by omega), if_pos (by omega)]
  exact congrArg Target.vram (by omega)

theorem target_cart_high (s : State) {a : Word} (h : 0xA000 ≤ a.toNat ∧ a.toNat ≤ 0xBFFF) : s.target a = .cart a := by
  simp only [State.target, decodeAddr]
  rw [if_neg (by omega), if_neg (by omega), if_neg (by omega), if_pos (by omega)]

theorem target_wram (s : State) {a : Word} (h : 0xC000 ≤ a.toNat ∧ a.toNat ≤ 0xFDFF) :
    s.target a = .wram (a.toNat % 0x2000) := by
  simp only [State.target, decodeAddr, Params.echoRam, if_true]
  rw [if_neg (by omega), if_neg (by omega), if_neg (by omega), if_neg (by omega)]
  split
  · rfl
  · rw [if_pos (by omega)]

theorem target_oam (s : State) {a : Word} (h : 0xFE00 ≤ a.toNat ∧ a.toNat ≤ 0xFE9F) :
    s.target a = .oam (a.toNat - 0xFE00) := by
  simp only [State.target, decodeAddr]
  rw [if_neg (by omega), if_neg (by omega), if_neg (by omega), if_neg (by omega), if_neg (by omega), if_neg (by omega),
    if_pos (by omega)]
  exact congrArg Target.oam (by omega)

/-- What is left above object memory. -/
theorem target_high (s : State) {a : Word} (h : 0xFEA0 ≤ a.toNat) :
    s.target a =
      if 0xFF04 ≤ a.toNat ∧ a.toNat ≤ 0xFF07 then .timer a
      else if a.toNat = 0xFF0F then .intFlags
      else if 0xFF40 ≤ a.toNat ∧ a.toNat ≤ 0xFF4B then ppuRegAt (a.toNat - 0xFF40)
      else if a.toNat = 0xFF50 then .bootSwitch
      else if 0xFF80 ≤ a.toNat ∧ a.toNat ≤ 0xFFFE then .hram (a.toNat % 0x80)
      else if a.toNat = 0xFFFF then .intEnable
      else .unmapped := by
  simp only [State.target, decodeAddr]
  rw [if_neg (by omega), if_neg (by omega), if_neg (by omega), if_neg (by omega), if_neg (by omega), if_neg (by omega),
    if_neg (by omega)]

theorem target_timer (s : State) {a : Word} (h : 0xFF04 ≤ a.toNat ∧ a.toNat ≤ 0xFF07) : s.target a = .timer a := by
  rw [target_high s (by omega), if_pos h]

theorem target_ppuReg (s : State) {a : Word} (h : 0xFF40 ≤ a.toNat ∧ a.toNat ≤ 0xFF4B) :
    s.target a = ppuRegAt (a.toNat - 0xFF40) := by
  rw [target_high s (by omega), if_neg (by omega), if_neg (by omega), if_pos h]

theorem target_hram (s : State) {a : Word} (h : 0xFF80 ≤ a.toNat ∧ a.toNat ≤ 0xFFFE) :
    s.target a = .hram (a.toNat - 0xFF80) := by
  rw [target_high s (by omega), if_neg (by omega), if_neg (by omega), if_neg (by omega), if_neg (by omega), if_pos h]
  exact congrArg Target.hram (by omega)

/-- A PPU register, or nothing. -/
theorem ppuRegAt_cases (n : Nat) : (∃ r, ppuRegAt n = .ppuReg r) ∨ ppuRegAt n = .unmapped := by
  unfold ppuRegAt; split <;> simp

/-- Only working RAM's addresses select it. -/
theorem wram_range (s : State) (b : Word) (off : Nat) (h : s.target b = .wram off) :
    (0xC000 ≤ b.toNat ∧ b.toNat ≤ 0xFDFF) ∧ off = b.toNat % 0x2000 := by
  by_cases hr : 0xC000 ≤ b.toNat ∧ b.toNat ≤ 0xFDFF
  · rw [target_wram s hr] at h; injection h with h; exact ⟨hr, h.symm⟩
  · exfalso
    by_cases h1 : b.toNat ≤ 0xFF ∧ s.bootActive = true
    · rw [target_bootRom s h1.1 h1.2] at h; cases h
    by_cases h2 : b.toNat ≤ 0x7FFF
    · rw [target_cart_low s h2 (by by_cases hb : s.bootActive = true <;> simp_all)] at h; cases h
    by_cases h3 : b.toNat ≤ 0x9FFF
    · rw [target_vram s (by omega)] at h; cases h
    by_cases h4 : b.toNat ≤ 0xBFFF
    · rw [target_cart_high s (by omega)] at h; cases h
    by_cases h5 : b.toNat ≤ 0xFE9F
    · rw [target_oam s (by omega)] at h; cases h
    rw [target_high s (by omega)] at h
    split at h
    · cases h
    split at h
    · cases h
    split at h
    · rcases ppuRegAt_cases (b.toNat - 0xFF40) with ⟨r, e⟩ | e <;> rw [e] at h <;> cases h
    split at h
    · cases h
    split at h
    · cases h
    split at h <;> cases h

/-- Only high RAM's addresses select it. -/
theorem hram_range (s : State) (b : Word) (off : Nat) (h : s.target b = .hram off) :
    (0xFF80 ≤ b.toNat ∧ b.toNat ≤ 0xFFFE) ∧ off = b.toNat - 0xFF80 := by
  by_cases hr : 0xFF80 ≤ b.toNat ∧ b.toNat ≤ 0xFFFE
  · rw [target_hram s hr] at h; injection h with h; exact ⟨hr, h.symm⟩
  · exfalso
    by_cases h1 : b.toNat ≤ 0xFF ∧ s.bootActive = true
    · rw [target_bootRom s h1.1 h1.2] at h; cases h
    by_cases h2 : b.toNat ≤ 0x7FFF
    · rw [target_cart_low s h2 (by by_cases hb : s.bootActive = true <;> simp_all)] at h; cases h
    by_cases h3 : b.toNat ≤ 0x9FFF
    · rw [target_vram s (by omega)] at h; cases h
    by_cases h4 : b.toNat ≤ 0xBFFF
    · rw [target_cart_high s (by omega)] at h; cases h
    by_cases h6 : b.toNat ≤ 0xFDFF
    · rw [target_wram s (by omega)] at h; cases h
    by_cases h5 : b.toNat ≤ 0xFE9F
    · rw [target_oam s (by omega)] at h; cases h
    rw [target_high s (by omega)] at h
    split at h
    · cases h
    split at h
    · cases h
    split at h
    · rcases ppuRegAt_cases (b.toNat - 0xFF40) with ⟨r, e⟩ | e <;> rw [e] at h <;> cases h
    split at h
    · cases h
    split at h <;> cases h

end Sys2Proof.Machine
end

