-- ==== Sys2Proof/Laws/Flags.lean ====
section
/-!
SUPPORT. The flag accessors, and what each flag computation leaves in each flag.
-/

namespace Sys2Proof.Machine

/-- Writing a flag changes that flag and no other. -/
@[simp] theorem getFlag_setFlag (f : Byte) (x y : Flag) (v : Bool) :
    getFlag (setFlag x v f) y = if y = x then v else getFlag f y := by
  revert f; cases x <;> cases y <;> cases v <;> decide

/-- Writing a flag leaves the low nibble of F. -/
@[simp] theorem lowNibble_setFlag (f : Byte) (x : Flag) (v : Bool) : lowNibble (setFlag x v f) = lowNibble f := by
  revert f; cases x <;> cases v <;> decide

@[simp] theorem lowNibble_incFlags (v f : Byte) : lowNibble (incFlags v f) = lowNibble f := by simp [incFlags]
@[simp] theorem lowNibble_decFlags (v f : Byte) : lowNibble (decFlags v f) = lowNibble f := by simp [decFlags]
@[simp] theorem lowNibble_cpFlags (a v f : Byte) : lowNibble (cpFlags a v f) = lowNibble f := by simp [cpFlags]
@[simp] theorem lowNibble_rotLFlags (v f : Byte) : lowNibble (rotLFlags v f) = lowNibble f := by simp [rotLFlags]
@[simp] theorem lowNibble_bitFlags (b : Fin 8) (v f : Byte) : lowNibble (bitFlags b v f) = lowNibble f := by
  simp [bitFlags]

/-- A write to AF clears the low nibble of F (rule R13). -/
@[simp] theorem lowNibble_masked (v : Byte) : lowNibble (v &&& 0xF0) = 0 := by revert v; decide

@[simp] theorem incFlags_c (v f : Byte) : getFlag (incFlags v f) .c = getFlag f .c := by simp [incFlags]
@[simp] theorem decFlags_c (v f : Byte) : getFlag (decFlags v f) .c = getFlag f .c := by simp [decFlags]
@[simp] theorem bitFlags_c (b : Fin 8) (v f : Byte) : getFlag (bitFlags b v f) .c = getFlag f .c := by simp [bitFlags]

end Sys2Proof.Machine
end

