-- ==== Sys2Proof/Laws/Exec.lean ====
section
/-!
SUPPORT. What one cycle of one instruction can do, said once. `execForm` is `exec` read off the operand view, 45 cases instead of
215; `exec_next_cases` is the inversion lemma from which frames and invariants follow.
-/

namespace Sys2Proof.Machine

/-- The listing of a form. -/
def execForm : Form → State → Result
  | .ldRR dst src, s => ldRegReg dst src s
  | .ldRMHl dst, s => ldRegInd dst .hl s
  | .ldMHlR src, s => ldIndReg .hl src s
  | .ldRD8 dst, s => ldRegImm8 dst s
  | .ldMHlD8, s => ldIndImm8 .hl s
  | .ldAMBc, s => ldRegInd .a .bc s
  | .ldAMDe, s => ldRegInd .a .de s
  | .ldMBcA, s => ldIndReg .bc .a s
  | .ldMDeA, s => ldIndReg .de .a s
  | .ldAMA16, s => ldADir16 s
  | .ldhMA8A, s => ldDir8A s
  | .ldhAMA8, s => ldADir8 s
  | .ldMCA, s => ldIndReg .highC .a s
  | .ldAMC, s => ldRegInd .a .highC s
  | .ldMHlIncA, s => ldIndReg .hlInc .a s
  | .ldMHlDecA, s => ldIndReg .hlDec .a s
  | .ldAMHlInc, s => ldRegInd .a .hlInc s
  | .ldAMHlDec, s => ldRegInd .a .hlDec s
  | .ldMA16Sp, s => ldDir16Sp s
  | .ldMA16A, s => ldDir16A s
  | .ldRrD16 p, s => ldPairImm16 p s
  | .ldSpHl, s => ldSpHl s
  | .incR r, s => incReg r s
  | .incMHl, s => incInd s
  | .decR r, s => decReg r s
  | .decMHl, s => decInd s
  | .incRr p, s => incPair p s
  | .decRr p, s => decPair p s
  | .cpR r, s => cpReg r s
  | .cpMHl, s => cpInd s
  | .cpD8, s => cpImm8 s
  | .jr, s => jumpRel s
  | .jrCc cc, s => jumpRelIf cc s
  | .pushRr p, s => pushPair p s
  | .popRr p, s => popPair p s
  | .call, s => callDir s
  | .ret, s => returnPop s
  | .reti, s => returnPopEnable s
  | .ei, s => setIme true s
  | .di, s => setIme false s
  | .prefixCb, s => execPrefixCb s
  | .rlR r, s => rlReg r s
  | .rlMHl, s => rlInd s
  | .bitR b r, s => bitReg b r s
  | .bitMHl b, s => bitInd b s

/-- An instruction runs the listing of its form. -/
theorem exec_eq_execForm (i : Instr) (s : State) : exec i s = execForm i.form s := by cases i <;> rfl

/-- The second table holds only second-table instructions. -/
theorem isCb_of_decodeOpcode_true {op : Byte} {i : Instr} (h : decodeOpcode true op = some i) : i.form.isCb = true := by
  have all : ∀ op : Byte, ∀ i ∈ decodeOpcode true op, i.form.isCb = true := by decide
  exact all op i h

/-- The first table holds only first-table instructions. -/
theorem isCb_of_decodeOpcode_false {op : Byte} {i : Instr} (h : decodeOpcode false op = some i) : i.form.isCb = false := by
  have all : ∀ op : Byte, ∀ i ∈ decodeOpcode false op, i.form.isCb = false := by decide
  exact all op i h

/-- Redispatching runs the second-table instruction the opcode selects (rule R108). -/
theorem redispatch_of_some {s : State} {i : Instr} (h : decodeOpcode true s.ctx.opcode = some i) :
    redispatch s = exec i s := by
  have hc := isCb_of_decodeOpcode_true h
  unfold redispatch
  rw [h]
  cases i <;> first | rfl | cases hc

/-- Redispatching on an opcode with no handler raises the fault (rule R108). -/
theorem redispatch_of_none {s : State} (h : decodeOpcode true s.ctx.opcode = none) :
    redispatch s = .next (raiseUnimplemented s) := by
  unfold redispatch
  rw [h]

/-- What a cycle does before it ends or fetches: registers, latches and `ime` may change, at most one byte is written on the bus,
and nothing else moves. -/
structure CycleBody (s x : State) : Prop where
  opcode : x.ctx.opcode = s.ctx.opcode
  cb : x.ctx.cb = s.ctx.cb
  mstep : x.ctx.mstep = s.ctx.mstep
  phase : x.phase = s.phase
  fault : x.fault = s.fault
  extIrq : x.extIrq = s.extIrq
  flags : lowNibble s.regs.f = 0 → lowNibble x.regs.f = 0
  bus : ∃ w, (w = s ∨ ∃ a v, w = busWrite s a v) ∧ BusSame w x

/-- A body that does not write the bus. -/
theorem CycleBody.quiet {s : State} (g : Regs) (c : Ctx) (b : Bool) (hg : lowNibble s.regs.f = 0 → lowNibble g.f = 0)
    (ho : c.opcode = s.ctx.opcode) (hc : c.cb = s.ctx.cb) (hm : c.mstep = s.ctx.mstep) :
    CycleBody s { s with regs := g, ctx := c, irq := { s.irq with ime := b } } :=
  ⟨ho, hc, hm, rfl, rfl, rfl, hg, s, .inl rfl, ⟨rfl, rfl, rfl, rfl, rfl⟩⟩

/-- A body that writes one byte. -/
theorem CycleBody.store {s : State} (a : Word) (v : Byte) (g : Regs) (c : Ctx)
    (hg : lowNibble s.regs.f = 0 → lowNibble g.f = 0)
    (ho : c.opcode = s.ctx.opcode) (hc : c.cb = s.ctx.cb) (hm : c.mstep = s.ctx.mstep) :
    CycleBody s { busWrite s a v with regs := g, ctx := c } :=
  ⟨ho, hc, hm, by simp, by simp, by simp, hg, _, .inr ⟨a, v, rfl⟩, ⟨rfl, rfl, rfl, rfl, rfl⟩⟩

theorem lowNibble_set16 (g : Regs) (p : Reg16) (v : Word) (h : lowNibble g.f = 0) : lowNibble (g.set16 p v).f = 0 := by
  cases p <;> first | exact h | exact lowNibble_masked _

theorem f_indUpdate (s : State) (k : Ind) : (indUpdate s k).regs.f = s.regs.f := by cases k <;> rfl

theorem CycleBody.readInd (s : State) (k : Ind) : CycleBody s (readInd k s) := by
  cases k <;> exact CycleBody.quiet _ _ s.irq.ime id rfl rfl rfl

/-- A store through an IND operand, after the flags may have been written. -/
theorem CycleBody.writeInd (s : State) (k : Ind) (v f : Byte) (hf : lowNibble s.regs.f = 0 → lowNibble f = 0) :
    CycleBody s (writeInd k v (s.setF f)) := by
  have h := busWrite_withCpu s (indAddr (s.setF f) k) v { s.regs with f := f } s.ctx
  have e : busWrite (s.setF f) (indAddr (s.setF f) k) v =
      { busWrite s (indAddr (s.setF f) k) v with regs := { s.regs with f := f }, ctx := s.ctx } := h
  unfold Machine.writeInd
  rw [e]
  cases k <;> exact CycleBody.store _ _ _ _ hf rfl rfl rfl

theorem CycleBody.write (s : State) (a : Word) (v : Byte) : CycleBody s (busWrite s a v) := by
  have h := CycleBody.store a v s.regs s.ctx id rfl rfl rfl
  have e : { busWrite s a v with regs := s.regs, ctx := s.ctx } = busWrite s a v := by
    have h1 := busWrite_regs s a v
    have h2 := busWrite_ctx s a v
    generalize busWrite s a v = t at *
    cases t
    simp only at h1 h2
    rw [h1, h2]
  rwa [e] at h

theorem CycleBody.pushByte (s : State) (v : Byte) : CycleBody s (pushByte s v) := by
  unfold Machine.pushByte
  have h := busWrite_withCpu s (s.regs.sp - 1) v { s.regs with sp := s.regs.sp - 1 } s.ctx
  have e : busWrite (s.setSp (s.regs.sp - 1)) (s.regs.sp - 1) v =
      { busWrite s (s.regs.sp - 1) v with regs := { s.regs with sp := s.regs.sp - 1 }, ctx := s.ctx } := h
  rw [e]
  exact CycleBody.store _ _ _ _ id rfl rfl rfl

theorem CycleBody.self (s : State) : CycleBody s s := CycleBody.quiet s.regs s.ctx s.irq.ime id rfl rfl rfl

/-- How a cycle that answers a next state ends (rule R94): the micro-step counter advances to a later line of the listing, or the
trailing fetch completes the instruction. -/
def CycleEnds (i : Form) (s t : State) : Prop :=
  ∃ x, CycleBody s x ∧ (t = x.advance ∧ s.ctx.mstep + 1 < lines i ∨ t = fetch x)

theorem cycleEnds_endCycle {i : Form} {s x t : State} (b : CycleBody s x) (l : s.ctx.mstep + 1 < lines i)
    (h : endCycle x = .next t) : CycleEnds i s t := by
  cases h; exact ⟨x, b, .inl ⟨rfl, l⟩⟩

theorem cycleEnds_complete {i : Form} {s x t : State} (b : CycleBody s x) (h : complete x = .next t) :
    CycleEnds i s t := by
  cases h; exact ⟨x, b, .inr rfl⟩

theorem CycleBody.set8 (s : State) (r : Reg8) (v f : Byte) (hf : lowNibble s.regs.f = 0 → lowNibble f = 0) :
    CycleBody s ((s.setF f).set8 r v) :=
  CycleBody.quiet _ s.ctx s.irq.ime (by simpa using hf) rfl rfl rfl

theorem CycleBody.set16 (s : State) (p : Reg16) (v : Word) : CycleBody s (s.set16 p v) :=
  CycleBody.quiet _ s.ctx s.irq.ime (lowNibble_set16 _ _ _) rfl rfl rfl

theorem CycleBody.setF (s : State) (f : Byte) (hf : lowNibble s.regs.f = 0 → lowNibble f = 0) :
    CycleBody s (s.setF f) :=
  CycleBody.quiet _ s.ctx s.irq.ime hf rfl rfl rfl

/-- Latches, PC and SP: F and the opcode are not touched. -/
theorem CycleBody.latch (s : State) (c : Ctx) (pc sp : Word) (ho : c.opcode = s.ctx.opcode) (hc : c.cb = s.ctx.cb)
    (hm : c.mstep = s.ctx.mstep) : CycleBody s { s with ctx := c, regs := { s.regs with pc := pc, sp := sp } } :=
  CycleBody.quiet _ c s.irq.ime id ho hc hm

theorem CycleBody.setIme (s : State) (b : Bool) : CycleBody s (s.setIme b) :=
  CycleBody.quiet s.regs s.ctx b id rfl rfl rfl

theorem CycleBody.branchTaken (s : State) : CycleBody s (branchTaken s) :=
  CycleBody.latch s s.ctx _ s.regs.sp rfl rfl rfl

theorem CycleBody.setPc (s : State) (w : Word) : CycleBody s (s.setPc w) :=
  CycleBody.latch s s.ctx w s.regs.sp rfl rfl rfl

theorem CycleBody.popLow (s : State) : CycleBody s (popLow s) :=
  CycleBody.latch s _ s.regs.pc _ rfl rfl rfl

theorem CycleBody.popHigh (s : State) : CycleBody s (popHigh s) :=
  CycleBody.latch s _ s.regs.pc _ rfl rfl rfl

theorem CycleBody.readImm8 (s : State) : CycleBody s (readImm8 s) :=
  CycleBody.latch s _ _ s.regs.sp rfl rfl rfl

theorem CycleBody.readImm16Lo (s : State) : CycleBody s (readImm16Lo s) :=
  CycleBody.latch s _ _ s.regs.sp rfl rfl rfl

theorem CycleBody.readImm16Hi (s : State) : CycleBody s (readImm16Hi s) :=
  CycleBody.latch s _ _ s.regs.sp rfl rfl rfl

theorem CycleBody.setLat8 (s : State) (v : Byte) : CycleBody s (s.setLat8 v) :=
  CycleBody.latch s _ s.regs.pc s.regs.sp rfl rfl rfl

theorem noCycle_ne_next (s t : State) : noCycle s ≠ .next t := by simp [noCycle]

/-- Every cycle of every listing but the prefix's: a body, then the end of the cycle or the trailing fetch. -/
theorem execForm_next_cases (f : Form) (hf : f ≠ .prefixCb) {s t : State} (h : execForm f s = .next t) :
    CycleEnds f s t := by
  cases f <;>
    simp only [execForm, ldRegReg, ldRegInd, ldIndReg, ldRegImm8, ldIndImm8, ldADir16, ldDir8A, ldADir8, ldDir16A,
      ldDir16Sp, ldPairImm16, ldSpHl, incReg, decReg, incInd, decInd, incPair, decPair, cpReg, cpInd, cpImm8,
      compareWith, rlReg, rlInd, bitReg, bitInd, jumpRel, jumpRelIf, pushPair, popPair, callDir, returnPop,
      returnPopEnable, setIme] at h
  case prefixCb => exact absurd rfl hf
  all_goals split at h <;> first
    | exact absurd h (noCycle_ne_next _ _)
    | (rename_i hm
       refine cycleEnds_endCycle ?_ (by rw [hm]; simp [lines]) h
       first
       | exact .self _
       | exact .readInd _ _
       | exact .readImm8 _
       | exact .readImm16Lo _
       | exact .readImm16Hi _
       | exact .setLat8 _ _
       | exact .popLow _
       | exact .popHigh _
       | exact .setPc _ _
       | exact .branchTaken _
       | exact .set16 _ _ _
       | exact .pushByte _ _
       | exact .write _ _ _
       | exact .writeInd s _ _ s.regs.f id
       | exact .writeInd s _ _ _ (by simp))
    | (refine cycleEnds_complete ?_ h
       first
       | exact .self _
       | exact .setPc _ _
       | exact .set16 _ _ _
       | exact .setIme _ _
       | exact .set8 s _ _ s.regs.f id
       | exact .set8 s _ _ _ (by simp)
       | exact .setF s _ (by simp))
    | (split at h
       · rename_i hm _
         exact cycleEnds_endCycle (.branchTaken _) (by rw [hm]; simp [lines]) h
       · exact cycleEnds_complete (.self _) h)

/-- The same of an instruction. -/
theorem exec_next_cases {i : Instr} (hi : i.form ≠ .prefixCb) {s t : State} (h : exec i s = .next t) :
    CycleEnds i.form s t :=
  execForm_next_cases _ hi (by rwa [← exec_eq_execForm])

/-- A meaning never refuses, and faults only on a cycle index outside its listing (log 10). -/
theorem exec_of_not_next (i : Instr) (s : State) (h : lines i.form ≤ s.ctx.mstep) :
    exec i s = .fault (.noSuchCycle s.ctx.mstep) := by
  rw [exec_eq_execForm]
  cases hf : i.form <;> rw [hf] at h <;>
    simp only [execForm, ldRegReg, ldRegInd, ldIndReg, ldRegImm8, ldIndImm8, ldADir16, ldDir8A, ldADir8, ldDir16A,
      ldDir16Sp, ldPairImm16, ldSpHl, incReg, decReg, incInd, decInd, incPair, decPair, cpReg, cpInd, cpImm8,
      compareWith, rlReg, rlInd, bitReg, bitInd, jumpRel, jumpRelIf, pushPair, popPair, callDir, returnPop,
      returnPopEnable, setIme, execPrefixCb] <;>
    split <;> first | rfl | (simp_all [lines])

end Sys2Proof.Machine
end

