-- ==== Sys2Proof/Laws/Ppu.lean ====
section
/-!
SUPPORT. The PPU step, said once: which of its three arms runs, what each transition leaves, and that a rendered line keeps the
frame buffer in canonical form and in bounds.
-/

namespace Sys2Proof.Machine

/-- What every PPU step leaves alone: the memories and the registers the CPU writes. -/
structure PpuKept (p q : Ppu) : Prop where
  vram : q.vram = p.vram
  oam : q.oam = p.oam
  lcdc : q.lcdc = p.lcdc
  statCfg : q.statCfg = p.statCfg
  lyc : q.lyc = p.lyc
  scx : q.scx = p.scx
  scy : q.scy = p.scy
  wx : q.wx = p.wx
  wy : q.wy = p.wy
  bgp : q.bgp = p.bgp
  obp0 : q.obp0 = p.obp0
  obp1 : q.obp1 = p.obp1

/-- The arm of a PPU step: off, counting, or the transition at the end of the budget. -/
theorem Ppu.step_arm (p : Ppu) :
    (p.lcdc.getLsbD 7 = false ∧ p.step.1 = { p with frameComplete := false } ∧ p.step.2 = 0) ∨
    (p.lcdc.getLsbD 7 = true ∧ p.cnt - 1 ≠ 0 ∧ p.step.1 = { p with cnt := p.cnt - 1, frameComplete := false } ∧
      p.step.2 = 0) ∨
    (p.lcdc.getLsbD 7 = true ∧ p.cnt - 1 = 0 ∧
      p.step = Ppu.transition { p with cnt := p.cnt - 1, frameComplete := false }) := by
  unfold Ppu.step Ppu.enabled
  dsimp only
  cases h : p.lcdc.getLsbD 7
  · exact .inl ⟨rfl, rfl, rfl⟩
  · by_cases hc : p.cnt - 1 = 0
    · exact .inr (.inr ⟨rfl, hc, by simp only [if_true, hc]⟩)
    · exact .inr (.inl ⟨rfl, hc, by simp only [if_true, hc, if_false], by simp only [if_true, hc, if_false]⟩)

theorem Ppu.transition_kept (p : Ppu) : PpuKept p p.transition.1 := by
  unfold Ppu.transition
  split
  · exact ⟨rfl, rfl, rfl, rfl, rfl, rfl, rfl, rfl, rfl, rfl, rfl, rfl⟩
  · exact ⟨rfl, rfl, rfl, rfl, rfl, rfl, rfl, rfl, rfl, rfl, rfl, rfl⟩
  · unfold Ppu.leaveHBlank
    dsimp only
    split <;> exact ⟨rfl, rfl, rfl, rfl, rfl, rfl, rfl, rfl, rfl, rfl, rfl, rfl⟩
  · unfold Ppu.leaveVBlankLine
    split <;> exact ⟨rfl, rfl, rfl, rfl, rfl, rfl, rfl, rfl, rfl, rfl, rfl, rfl⟩

theorem Ppu.step_kept (p : Ppu) : PpuKept p p.step.1 := by
  rcases p.step_arm with ⟨-, h, -⟩ | ⟨-, -, h, -⟩ | ⟨-, -, h⟩
  · rw [h]; exact ⟨rfl, rfl, rfl, rfl, rfl, rfl, rfl, rfl, rfl, rfl, rfl, rfl⟩
  · rw [h]; exact ⟨rfl, rfl, rfl, rfl, rfl, rfl, rfl, rfl, rfl, rfl, rfl, rfl⟩
  · rw [h]
    have k := Ppu.transition_kept { p with cnt := p.cnt - 1, frameComplete := false }
    exact ⟨k.vram, k.oam, k.lcdc, k.statCfg, k.lyc, k.scx, k.scy, k.wx, k.wy, k.bgp, k.obp0, k.obp1⟩

/-- The shade bytes (rule R231). -/
theorem shadeByte_cases (c : BitVec 2) : shadeByte c = 0xFF ∨ shadeByte c = 0xAA ∨ shadeByte c = 0x55 ∨ shadeByte c = 0x00 := by
  revert c; decide

/-- Every entry of the frame buffer after rendering is a rendered pixel or was there before. -/
theorem Ppu.mem_renderPixels (p : Ppu) (y n : Nat) {c : Host.Cell} (h : c ∈ p.renderPixels y n) :
    (∃ x < n, c.1 = y * 160 + x ∧ c.2 = p.pixel y x) ∨ c ∈ p.fb := by
  induction n with
  | zero => exact .inr h
  | succ n ih =>
    rcases Memory.mem_write _ _ _ h with ⟨rfl, -⟩ | h
    · exact .inl ⟨n, Nat.lt_succ_self n, rfl, rfl⟩
    · rcases ih h with ⟨x, hx, e⟩ | h
      · exact .inl ⟨x, Nat.lt_succ_of_lt hx, e⟩
      · exact .inr h

/-- Rendering keeps the canonical form. -/
theorem Ppu.wf_renderPixels (p : Ppu) (y n : Nat) (h : p.fb.wf) : (p.renderPixels y n).wf := by
  induction n with
  | zero => exact h
  | succ n ih => exact Memory.wf_write _ _ _ ih

end Sys2Proof.Machine
end

