-- ==== Sys2Proof/Laws/Invariant.lean ====
section
/-!
SUPPORT. The canonical form of every memory under a bus write, and what the rest of a tick leaves of the engine.
-/

namespace Sys2Proof.Machine

/-- A bus write keeps every memory in canonical form and inside its size. -/
theorem memoryInv_busWrite (s : State) (a : Word) (v : Byte) (h : s.MemoryInv) : (busWrite s a v).MemoryInv := by
  obtain ⟨h1, h2, h3, h4, h5, h6, h7, h8⟩ := h
  have hr := decodeAddr_inRange Params.echoRam s.bootActive a
  unfold busWrite State.target
  generalize decodeAddr Params.echoRam s.bootActive a = T at *
  cases T with
  | ppuReg r => cases r <;> exact ⟨h1, h2, h3, h4, h5, h6, h7, h8⟩
  | vram off =>
    simp only [writeTarget]; split
    · exact ⟨h1, h2, h3, h4, h5, h6, h7, h8⟩
    · exact ⟨⟨Memory.wf_write _ _ _ h1.1, Memory.below_write _ h1.2 hr⟩, h2, h3, h4, h5, h6, h7, h8⟩
  | oam off =>
    simp only [writeTarget]; split
    · exact ⟨h1, h2, h3, h4, h5, h6, h7, h8⟩
    · exact ⟨h1, ⟨Memory.wf_write _ _ _ h2.1, Memory.below_write _ h2.2 hr⟩, h3, h4, h5, h6, h7, h8⟩
  | wram off => exact ⟨h1, h2, h3, h4, ⟨Memory.wf_write _ _ _ h5.1, Memory.below_write _ h5.2 hr⟩, h6, h7, h8⟩
  | hram off => exact ⟨h1, h2, h3, h4, h5, ⟨Memory.wf_write _ _ _ h6.1, Memory.below_write _ h6.2 hr⟩, h7, h8⟩
  | cart x => exact ⟨h1, h2, h3, h4, h5, h6, Device.wf_write _ _ _ _ hr h7, h8⟩
  | timer x => exact ⟨h1, h2, h3, h4, h5, h6, h7, Device.wf_write _ _ _ _ hr h8⟩
  | bootSwitch => simp only [writeTarget]; split <;> exact ⟨h1, h2, h3, h4, h5, h6, h7, h8⟩
  | _ => exact ⟨h1, h2, h3, h4, h5, h6, h7, h8⟩

theorem restOfTick_phase (s : State) : (restOfTick s).phase = s.phase := by
  unfold restOfTick
  split
  · rfl
  all_goals unfold sampleExtIrq ppuStep raiseIrq; dsimp only; split <;> rfl

theorem restOfTick_ctx (s : State) : (restOfTick s).ctx = s.ctx := by
  unfold restOfTick
  split
  · rfl
  all_goals unfold sampleExtIrq ppuStep raiseIrq; dsimp only; split <;> rfl

theorem restOfTick_regs (s : State) : (restOfTick s).regs = s.regs := by
  unfold restOfTick
  split
  · rfl
  all_goals unfold sampleExtIrq ppuStep raiseIrq; dsimp only; split <;> rfl

end Sys2Proof.Machine
end

