-- ==== Sys2Proof/Laws/PerInstr.lean ====
section
/-!
SUPPORT. One family of laws per instruction: the opcode byte the bit patterns of rules R76 and R77 give an instruction selects
it in the grids of rules R80 and R81.
-/

namespace Sys2Proof.Laws.OpcodeSelects

/-- The engine's decode of an instruction's opcode, in the table the instruction belongs to, is the instruction. -/
def Statement (i : Instr) : Prop := decodeOpcode i.form.isCb i.opcode = some i

theorem ldBcD16 : Statement .ldBcD16 := rfl
theorem ldMBcA : Statement .ldMBcA := rfl
theorem incBc : Statement .incBc := rfl
theorem incB : Statement .incB := rfl
theorem decB : Statement .decB := rfl
theorem ldBD8 : Statement .ldBD8 := rfl
theorem ldMA16Sp : Statement .ldMA16Sp := rfl
theorem ldAMBc : Statement .ldAMBc := rfl
theorem decBc : Statement .decBc := rfl
theorem incC : Statement .incC := rfl
theorem decC : Statement .decC := rfl
theorem ldCD8 : Statement .ldCD8 := rfl
theorem ldDeD16 : Statement .ldDeD16 := rfl
theorem ldMDeA : Statement .ldMDeA := rfl
theorem incDe : Statement .incDe := rfl
theorem incD : Statement .incD := rfl
theorem decD : Statement .decD := rfl
theorem ldDD8 : Statement .ldDD8 := rfl
theorem jr : Statement .jr := rfl
theorem ldAMDe : Statement .ldAMDe := rfl
theorem decDe : Statement .decDe := rfl
theorem incE : Statement .incE := rfl
theorem decE : Statement .decE := rfl
theorem ldED8 : Statement .ldED8 := rfl
theorem jrNz : Statement .jrNz := rfl
theorem ldHlD16 : Statement .ldHlD16 := rfl
theorem ldMHlIncA : Statement .ldMHlIncA := rfl
theorem incHl : Statement .incHl := rfl
theorem incH : Statement .incH := rfl
theorem decH : Statement .decH := rfl
theorem ldHD8 : Statement .ldHD8 := rfl
theorem jrZ : Statement .jrZ := rfl
theorem ldAMHlInc : Statement .ldAMHlInc := rfl
theorem decHl : Statement .decHl := rfl
theorem incL : Statement .incL := rfl
theorem decL : Statement .decL := rfl
theorem ldLD8 : Statement .ldLD8 := rfl
theorem jrNc : Statement .jrNc := rfl
theorem ldSpD16 : Statement .ldSpD16 := rfl
theorem ldMHlDecA : Statement .ldMHlDecA := rfl
theorem incSp : Statement .incSp := rfl
theorem incMHl : Statement .incMHl := rfl
theorem decMHl : Statement .decMHl := rfl
theorem ldMHlD8 : Statement .ldMHlD8 := rfl
theorem jrC : Statement .jrC := rfl
theorem ldAMHlDec : Statement .ldAMHlDec := rfl
theorem decSp : Statement .decSp := rfl
theorem incA : Statement .incA := rfl
theorem decA : Statement .decA := rfl
theorem ldAD8 : Statement .ldAD8 := rfl
theorem ldBB : Statement .ldBB := rfl
theorem ldBC : Statement .ldBC := rfl
theorem ldBD : Statement .ldBD := rfl
theorem ldBE : Statement .ldBE := rfl
theorem ldBH : Statement .ldBH := rfl
theorem ldBL : Statement .ldBL := rfl
theorem ldBMHl : Statement .ldBMHl := rfl
theorem ldBA : Statement .ldBA := rfl
theorem ldCB : Statement .ldCB := rfl
theorem ldCC : Statement .ldCC := rfl
theorem ldCD : Statement .ldCD := rfl
theorem ldCE : Statement .ldCE := rfl
theorem ldCH : Statement .ldCH := rfl
theorem ldCL : Statement .ldCL := rfl
theorem ldCMHl : Statement .ldCMHl := rfl
theorem ldCA : Statement .ldCA := rfl
theorem ldDB : Statement .ldDB := rfl
theorem ldDC : Statement .ldDC := rfl
theorem ldDD : Statement .ldDD := rfl
theorem ldDE : Statement .ldDE := rfl
theorem ldDH : Statement .ldDH := rfl
theorem ldDL : Statement .ldDL := rfl
theorem ldDMHl : Statement .ldDMHl := rfl
theorem ldDA : Statement .ldDA := rfl
theorem ldEB : Statement .ldEB := rfl
theorem ldEC : Statement .ldEC := rfl
theorem ldED : Statement .ldED := rfl
theorem ldEE : Statement .ldEE := rfl
theorem ldEH : Statement .ldEH := rfl
theorem ldEL : Statement .ldEL := rfl
theorem ldEMHl : Statement .ldEMHl := rfl
theorem ldEA : Statement .ldEA := rfl
theorem ldHB : Statement .ldHB := rfl
theorem ldHC : Statement .ldHC := rfl
theorem ldHD : Statement .ldHD := rfl
theorem ldHE : Statement .ldHE := rfl
theorem ldHH : Statement .ldHH := rfl
theorem ldHL : Statement .ldHL := rfl
theorem ldHMHl : Statement .ldHMHl := rfl
theorem ldHA : Statement .ldHA := rfl
theorem ldLB : Statement .ldLB := rfl
theorem ldLC : Statement .ldLC := rfl
theorem ldLD : Statement .ldLD := rfl
theorem ldLE : Statement .ldLE := rfl
theorem ldLH : Statement .ldLH := rfl
theorem ldLL : Statement .ldLL := rfl
theorem ldLMHl : Statement .ldLMHl := rfl
theorem ldLA : Statement .ldLA := rfl
theorem ldMHlB : Statement .ldMHlB := rfl
theorem ldMHlC : Statement .ldMHlC := rfl
theorem ldMHlD : Statement .ldMHlD := rfl
theorem ldMHlE : Statement .ldMHlE := rfl
theorem ldMHlH : Statement .ldMHlH := rfl
theorem ldMHlL : Statement .ldMHlL := rfl
theorem ldMHlA : Statement .ldMHlA := rfl
theorem ldAB : Statement .ldAB := rfl
theorem ldAC : Statement .ldAC := rfl
theorem ldAD : Statement .ldAD := rfl
theorem ldAE : Statement .ldAE := rfl
theorem ldAH : Statement .ldAH := rfl
theorem ldAL : Statement .ldAL := rfl
theorem ldAMHl : Statement .ldAMHl := rfl
theorem ldAA : Statement .ldAA := rfl
theorem cpB : Statement .cpB := rfl
theorem cpC : Statement .cpC := rfl
theorem cpD : Statement .cpD := rfl
theorem cpE : Statement .cpE := rfl
theorem cpH : Statement .cpH := rfl
theorem cpL : Statement .cpL := rfl
theorem cpMHl : Statement .cpMHl := rfl
theorem cpA : Statement .cpA := rfl
theorem popBc : Statement .popBc := rfl
theorem pushBc : Statement .pushBc := rfl
theorem ret : Statement .ret := rfl
theorem prefixCb : Statement .prefixCb := rfl
theorem call : Statement .call := rfl
theorem popDe : Statement .popDe := rfl
theorem pushDe : Statement .pushDe := rfl
theorem reti : Statement .reti := rfl
theorem ldhMA8A : Statement .ldhMA8A := rfl
theorem popHl : Statement .popHl := rfl
theorem ldMCA : Statement .ldMCA := rfl
theorem pushHl : Statement .pushHl := rfl
theorem ldMA16A : Statement .ldMA16A := rfl
theorem ldhAMA8 : Statement .ldhAMA8 := rfl
theorem popAf : Statement .popAf := rfl
theorem ldAMC : Statement .ldAMC := rfl
theorem di : Statement .di := rfl
theorem pushAf : Statement .pushAf := rfl
theorem ldSpHl : Statement .ldSpHl := rfl
theorem ldAMA16 : Statement .ldAMA16 := rfl
theorem ei : Statement .ei := rfl
theorem cpD8 : Statement .cpD8 := rfl
theorem rlB : Statement .rlB := rfl
theorem rlC : Statement .rlC := rfl
theorem rlD : Statement .rlD := rfl
theorem rlE : Statement .rlE := rfl
theorem rlH : Statement .rlH := rfl
theorem rlL : Statement .rlL := rfl
theorem rlMHl : Statement .rlMHl := rfl
theorem rlA : Statement .rlA := rfl
theorem bit0B : Statement .bit0B := rfl
theorem bit0C : Statement .bit0C := rfl
theorem bit0D : Statement .bit0D := rfl
theorem bit0E : Statement .bit0E := rfl
theorem bit0H : Statement .bit0H := rfl
theorem bit0L : Statement .bit0L := rfl
theorem bit0MHl : Statement .bit0MHl := rfl
theorem bit0A : Statement .bit0A := rfl
theorem bit1B : Statement .bit1B := rfl
theorem bit1C : Statement .bit1C := rfl
theorem bit1D : Statement .bit1D := rfl
theorem bit1E : Statement .bit1E := rfl
theorem bit1H : Statement .bit1H := rfl
theorem bit1L : Statement .bit1L := rfl
theorem bit1MHl : Statement .bit1MHl := rfl
theorem bit1A : Statement .bit1A := rfl
theorem bit2B : Statement .bit2B := rfl
theorem bit2C : Statement .bit2C := rfl
theorem bit2D : Statement .bit2D := rfl
theorem bit2E : Statement .bit2E := rfl
theorem bit2H : Statement .bit2H := rfl
theorem bit2L : Statement .bit2L := rfl
theorem bit2MHl : Statement .bit2MHl := rfl
theorem bit2A : Statement .bit2A := rfl
theorem bit3B : Statement .bit3B := rfl
theorem bit3C : Statement .bit3C := rfl
theorem bit3D : Statement .bit3D := rfl
theorem bit3E : Statement .bit3E := rfl
theorem bit3H : Statement .bit3H := rfl
theorem bit3L : Statement .bit3L := rfl
theorem bit3MHl : Statement .bit3MHl := rfl
theorem bit3A : Statement .bit3A := rfl
theorem bit4B : Statement .bit4B := rfl
theorem bit4C : Statement .bit4C := rfl
theorem bit4D : Statement .bit4D := rfl
theorem bit4E : Statement .bit4E := rfl
theorem bit4H : Statement .bit4H := rfl
theorem bit4L : Statement .bit4L := rfl
theorem bit4MHl : Statement .bit4MHl := rfl
theorem bit4A : Statement .bit4A := rfl
theorem bit5B : Statement .bit5B := rfl
theorem bit5C : Statement .bit5C := rfl
theorem bit5D : Statement .bit5D := rfl
theorem bit5E : Statement .bit5E := rfl
theorem bit5H : Statement .bit5H := rfl
theorem bit5L : Statement .bit5L := rfl
theorem bit5MHl : Statement .bit5MHl := rfl
theorem bit5A : Statement .bit5A := rfl
theorem bit6B : Statement .bit6B := rfl
theorem bit6C : Statement .bit6C := rfl
theorem bit6D : Statement .bit6D := rfl
theorem bit6E : Statement .bit6E := rfl
theorem bit6H : Statement .bit6H := rfl
theorem bit6L : Statement .bit6L := rfl
theorem bit6MHl : Statement .bit6MHl := rfl
theorem bit6A : Statement .bit6A := rfl
theorem bit7B : Statement .bit7B := rfl
theorem bit7C : Statement .bit7C := rfl
theorem bit7D : Statement .bit7D := rfl
theorem bit7E : Statement .bit7E := rfl
theorem bit7H : Statement .bit7H := rfl
theorem bit7L : Statement .bit7L := rfl
theorem bit7MHl : Statement .bit7MHl := rfl
theorem bit7A : Statement .bit7A := rfl

end Sys2Proof.Laws.OpcodeSelects
end

