-- ==== Sys2Proof/Tests/Slice0.lean ====
section
/-!
SUPPORT. Tests. Expected results are the spec's: its examples, corner cases and 95_test_vectors.md, and the rows of
opcode_table.json; none was taken from the model. Then one witness a statement: a state and operands that meet its hypotheses.
-/

namespace Sys2Proof.Tests

open Sys2Proof.Machine

/-! ## WellFormed: each check, with a term it refuses -/

/-- Check 1 refuses an immediate of the wrong shape: LD B,B has none, LD BC,d16 has a word. -/
theorem test_wf_refuses_shape :
    (⟨.ldBB, .byte 0⟩ : Code).wellFormed = false ∧ (⟨.ldBcD16, .byte 0⟩ : Code).wellFormed = false ∧
    (⟨.ldAD8, .none⟩ : Code).wellFormed = false := by decide

/-- Check 2 refuses a bare prefix before a byte that has a handler (0x10 and 0x7F are the ends of rule R77's lists). -/
theorem test_wf_refuses_prefix :
    (⟨.prefixCb, .byte 0x10⟩ : Code).wellFormed = false ∧ (⟨.prefixCb, .byte 0x7F⟩ : Code).wellFormed = false := by decide

theorem test_wf_accepts :
    (⟨.ldBB, .none⟩ : Code).wellFormed = true ∧ (⟨.ldBcD16, .word 0x1234⟩ : Code).wellFormed = true ∧
    (⟨.prefixCb, .byte 0x18⟩ : Code).wellFormed = true := by decide

/-! ## Decoding: every row of the opcode table, by its word -/

/-- Does every word of the list, `n` bits wide, decode to its instruction? -/
def decodes (n : Nat) (rows : List (Nat × Instr)) : Bool := rows.all fun r => decodeTableWord n r.1 == some r.2

theorem test_decode_0x : decodes 8 [
    (0b00000001, .ldBcD16), (0b00000010, .ldMBcA), (0b00000011, .incBc), (0b00000100, .incB), (0b00000101, .decB),
    (0b00000110, .ldBD8), (0b00001000, .ldMA16Sp), (0b00001010, .ldAMBc), (0b00001011, .decBc), (0b00001100, .incC),
    (0b00001101, .decC), (0b00001110, .ldCD8)] = true := by decide

theorem test_decode_1x : decodes 8 [
    (0b00010001, .ldDeD16), (0b00010010, .ldMDeA), (0b00010011, .incDe), (0b00010100, .incD), (0b00010101, .decD),
    (0b00010110, .ldDD8), (0b00011000, .jr), (0b00011010, .ldAMDe), (0b00011011, .decDe), (0b00011100, .incE),
    (0b00011101, .decE), (0b00011110, .ldED8)] = true := by decide

theorem test_decode_2x : decodes 8 [
    (0b00100000, .jrNz), (0b00100001, .ldHlD16), (0b00100010, .ldMHlIncA), (0b00100011, .incHl), (0b00100100, .incH),
    (0b00100101, .decH), (0b00100110, .ldHD8), (0b00101000, .jrZ), (0b00101010, .ldAMHlInc), (0b00101011, .decHl),
    (0b00101100, .incL), (0b00101101, .decL), (0b00101110, .ldLD8)] = true := by decide

theorem test_decode_3x : decodes 8 [
    (0b00110000, .jrNc), (0b00110001, .ldSpD16), (0b00110010, .ldMHlDecA), (0b00110011, .incSp), (0b00110100, .incMHl),
    (0b00110101, .decMHl), (0b00110110, .ldMHlD8), (0b00111000, .jrC), (0b00111010, .ldAMHlDec), (0b00111011, .decSp),
    (0b00111100, .incA), (0b00111101, .decA), (0b00111110, .ldAD8)] = true := by decide

theorem test_decode_4x : decodes 8 [
    (0b01000000, .ldBB), (0b01000001, .ldBC), (0b01000010, .ldBD), (0b01000011, .ldBE), (0b01000100, .ldBH),
    (0b01000101, .ldBL), (0b01000110, .ldBMHl), (0b01000111, .ldBA), (0b01001000, .ldCB), (0b01001001, .ldCC),
    (0b01001010, .ldCD), (0b01001011, .ldCE), (0b01001100, .ldCH), (0b01001101, .ldCL), (0b01001110, .ldCMHl),
    (0b01001111, .ldCA)] = true := by decide

theorem test_decode_5x : decodes 8 [
    (0b01010000, .ldDB), (0b01010001, .ldDC), (0b01010010, .ldDD), (0b01010011, .ldDE), (0b01010100, .ldDH),
    (0b01010101, .ldDL), (0b01010110, .ldDMHl), (0b01010111, .ldDA), (0b01011000, .ldEB), (0b01011001, .ldEC),
    (0b01011010, .ldED), (0b01011011, .ldEE), (0b01011100, .ldEH), (0b01011101, .ldEL), (0b01011110, .ldEMHl),
    (0b01011111, .ldEA)] = true := by decide

theorem test_decode_6x : decodes 8 [
    (0b01100000, .ldHB), (0b01100001, .ldHC), (0b01100010, .ldHD), (0b01100011, .ldHE), (0b01100100, .ldHH),
    (0b01100101, .ldHL), (0b01100110, .ldHMHl), (0b01100111, .ldHA), (0b01101000, .ldLB), (0b01101001, .ldLC),
    (0b01101010, .ldLD), (0b01101011, .ldLE), (0b01101100, .ldLH), (0b01101101, .ldLL), (0b01101110, .ldLMHl),
    (0b01101111, .ldLA)] = true := by decide

theorem test_decode_7x : decodes 8 [
    (0b01110000, .ldMHlB), (0b01110001, .ldMHlC), (0b01110010, .ldMHlD), (0b01110011, .ldMHlE), (0b01110100, .ldMHlH),
    (0b01110101, .ldMHlL), (0b01110111, .ldMHlA), (0b01111000, .ldAB), (0b01111001, .ldAC), (0b01111010, .ldAD),
    (0b01111011, .ldAE), (0b01111100, .ldAH), (0b01111101, .ldAL), (0b01111110, .ldAMHl), (0b01111111, .ldAA)] = true := by decide

theorem test_decode_Bx : decodes 8 [
    (0b10111000, .cpB), (0b10111001, .cpC), (0b10111010, .cpD), (0b10111011, .cpE), (0b10111100, .cpH), (0b10111101, .cpL),
    (0b10111110, .cpMHl), (0b10111111, .cpA)] = true := by decide

theorem test_decode_Cx : decodes 8 [
    (0b11000001, .popBc), (0b11000101, .pushBc), (0b11001001, .ret), (0b11001011, .prefixCb), (0b11001101, .call)] = true := by decide

theorem test_decode_Dx : decodes 8 [
    (0b11010001, .popDe), (0b11010101, .pushDe), (0b11011001, .reti)] = true := by decide

theorem test_decode_Ex : decodes 8 [
    (0b11100000, .ldhMA8A), (0b11100001, .popHl), (0b11100010, .ldMCA), (0b11100101, .pushHl), (0b11101010, .ldMA16A)] = true := by decide

theorem test_decode_Fx : decodes 8 [
    (0b11110000, .ldhAMA8), (0b11110001, .popAf), (0b11110010, .ldAMC), (0b11110011, .di), (0b11110101, .pushAf),
    (0b11111001, .ldSpHl), (0b11111010, .ldAMA16), (0b11111011, .ei), (0b11111110, .cpD8)] = true := by decide

theorem test_decode_cb_1x : decodes 16 [
    (0b1100101100010000, .rlB), (0b1100101100010001, .rlC), (0b1100101100010010, .rlD), (0b1100101100010011, .rlE),
    (0b1100101100010100, .rlH), (0b1100101100010101, .rlL), (0b1100101100010110, .rlMHl), (0b1100101100010111, .rlA)] = true := by decide

theorem test_decode_cb_4x : decodes 16 [
    (0b1100101101000000, .bit0B), (0b1100101101000001, .bit0C), (0b1100101101000010, .bit0D), (0b1100101101000011, .bit0E),
    (0b1100101101000100, .bit0H), (0b1100101101000101, .bit0L), (0b1100101101000110, .bit0MHl),
    (0b1100101101000111, .bit0A), (0b1100101101001000, .bit1B), (0b1100101101001001, .bit1C), (0b1100101101001010, .bit1D),
    (0b1100101101001011, .bit1E), (0b1100101101001100, .bit1H), (0b1100101101001101, .bit1L),
    (0b1100101101001110, .bit1MHl), (0b1100101101001111, .bit1A)] = true := by decide

theorem test_decode_cb_5x : decodes 16 [
    (0b1100101101010000, .bit2B), (0b1100101101010001, .bit2C), (0b1100101101010010, .bit2D), (0b1100101101010011, .bit2E),
    (0b1100101101010100, .bit2H), (0b1100101101010101, .bit2L), (0b1100101101010110, .bit2MHl),
    (0b1100101101010111, .bit2A), (0b1100101101011000, .bit3B), (0b1100101101011001, .bit3C), (0b1100101101011010, .bit3D),
    (0b1100101101011011, .bit3E), (0b1100101101011100, .bit3H), (0b1100101101011101, .bit3L),
    (0b1100101101011110, .bit3MHl), (0b1100101101011111, .bit3A)] = true := by decide

theorem test_decode_cb_6x : decodes 16 [
    (0b1100101101100000, .bit4B), (0b1100101101100001, .bit4C), (0b1100101101100010, .bit4D), (0b1100101101100011, .bit4E),
    (0b1100101101100100, .bit4H), (0b1100101101100101, .bit4L), (0b1100101101100110, .bit4MHl),
    (0b1100101101100111, .bit4A), (0b1100101101101000, .bit5B), (0b1100101101101001, .bit5C), (0b1100101101101010, .bit5D),
    (0b1100101101101011, .bit5E), (0b1100101101101100, .bit5H), (0b1100101101101101, .bit5L),
    (0b1100101101101110, .bit5MHl), (0b1100101101101111, .bit5A)] = true := by decide

theorem test_decode_cb_7x : decodes 16 [
    (0b1100101101110000, .bit6B), (0b1100101101110001, .bit6C), (0b1100101101110010, .bit6D), (0b1100101101110011, .bit6E),
    (0b1100101101110100, .bit6H), (0b1100101101110101, .bit6L), (0b1100101101110110, .bit6MHl),
    (0b1100101101110111, .bit6A), (0b1100101101111000, .bit7B), (0b1100101101111001, .bit7C), (0b1100101101111010, .bit7D),
    (0b1100101101111011, .bit7E), (0b1100101101111100, .bit7H), (0b1100101101111101, .bit7L),
    (0b1100101101111110, .bit7MHl), (0b1100101101111111, .bit7A)] = true := by decide

/-- Unimplemented words (rule R78): NOP, HALT and RLA of the family, and second opcodes beside the lists. -/
theorem test_decode_refuses :
    decodeTableWord 8 0x00 = none ∧ decodeTableWord 8 0x76 = none ∧ decodeTableWord 8 0x17 = none ∧
    decodeTableWord 8 0xFF = none ∧ decode [0x76] = .error (.unimplemented false 0x76) ∧
    decode [0x3E] = .error .truncated := by decide

/-- Immediates, low byte first (rule R75); a bare prefix keeps the byte it reads. -/
theorem test_decode_immediates :
    decode [0x08, 0x00, 0xC1, 0x99] = .ok (⟨.ldMA16Sp, .word 0xC100⟩, [0x99]) ∧
    decode [0x20, 0xFD] = .ok (⟨.jrNz, .byte 0xFD⟩, []) ∧ decode [0xCB, 0x18] = .ok (⟨.prefixCb, .byte 0x18⟩, []) := by decide

/-- The word the host places is the instruction the next step runs: INC B; CP d8 with operand 0 (cycle 0 reads it); RL C. -/
theorem test_withFetchWord :
    decodeOpcode (State.reset.withFetchWord 8 0x04).ctx.cb (State.reset.withFetchWord 8 0x04).ctx.opcode = some .incB ∧
    (State.reset.withFetchWord 16 0x00FE).ctx.opcode = 0xFE ∧ (State.reset.withFetchWord 16 0x00FE).phase = .run ∧
    (State.reset.withFetchWord 16 0xCB11).ctx.opcode = 0xCB ∧ (State.reset.withFetchWord 16 0xCB11).ctx.lat8 = 0x11 ∧
    (State.reset.withFetchWord 16 0xCB11).ctx.mstep = 1 := by decide

/-! ## Small states -/

/-- A state in phase Run, the overlay off and the PPU in HBlank, about to run cycle `m`. -/
def at' (m : Nat) (g : Regs) : State :=
  { State.reset with
    phase := .run
    regs := g
    ctx := { opcode := 0, cb := false, mstep := m, lat8 := 0, lat16 := 0 }
    bootActive := false
    ppu := { State.reset.ppu with mode := .hblank, cnt := 51 } }

/-- The registers at reset. -/
def g0 : Regs := State.reset.regs

end Sys2Proof.Tests

/-- The state with the latches set. -/
def Sys2Proof.Machine.State.latched (s : Sys2Proof.Machine.State) (v8 : Sys2Proof.Byte) (v16 : Sys2Proof.Word) :
    Sys2Proof.Machine.State :=
  { s with ctx := { s.ctx with lat8 := v8, lat16 := v16 } }

/-- The state with a byte of working RAM in place. -/
def Sys2Proof.Machine.State.ram (s : Sys2Proof.Machine.State) (a : Sys2Proof.Word) (v : Sys2Proof.Byte) :
    Sys2Proof.Machine.State :=
  Sys2Proof.Machine.placeByte s a v

namespace Sys2Proof.Tests

open Sys2Proof.Machine

/-- Something of the next state. -/
def after {α : Type} (r : Result) (f : State → α) : Option α :=
  match r with
  | .next t => some (f t)
  | .fault _ => none
  | .refused _ => none

/-! ## The instructions: the spec's examples, one cycle each -/

/-- R121: 0x78 with B = 0x5A gives A = 0x5A, B unchanged, one tick; PC moves past the next opcode. -/
theorem test_ldAB : after (exec .ldAB (at' 0 { g0 with b := 0x5A, pc := 0xC001 }))
    (fun t => (t.regs.a, t.regs.b, t.regs.pc, t.ctx.mstep)) = some (0x5A, 0x5A, 0xC002, 0) := by decide

/-- R122: LD H,(HL) takes the address from HL before it changes H. -/
theorem test_ldHMHl : after (exec .ldHMHl (at' 0 { g0 with h := 0xC0, l := 0x10 } |>.ram 0xC010 0x42))
    (fun t => (t.ctx.lat8, t.regs.h, t.ctx.mstep)) = some (0x42, 0xC0, 1) := by decide

/-- R123: 0x77 with HL = 0xC010, A = 0x99 stores 0x99. -/
theorem test_ldMHlA : after (exec .ldMHlA (at' 0 { g0 with h := 0xC0, l := 0x10, a := 0x99 }))
    (fun t => (busRead t 0xC010, t.regs.a)) = some (0x99, 0x99) := by decide

/-- R124: bytes 3E 00: A takes the latch in cycle 1. -/
theorem test_ldAD8 : after (exec .ldAD8 ((at' 1 { g0 with a := 0x77 }).latched 0x00 0)) (fun t => t.regs.a) = some 0 := by decide

/-- R125: bytes 36 7F with HL = 0xC000. -/
theorem test_ldMHlD8 : after (exec .ldMHlD8 ((at' 1 { g0 with h := 0xC0, l := 0x00 }).latched 0x7F 0))
    (fun t => busRead t 0xC000) = some 0x7F := by decide

/-- R126, R127: DE = 0xC104 holding 0xCE. -/
theorem test_ldAMDe : after (exec .ldAMDe (at' 0 { g0 with d := 0xC1, e := 0x04 } |>.ram 0xC104 0xCE)) (fun t => t.ctx.lat8) =
    some 0xCE := by decide

/-- R129: DE = 0x8000, A = 0xFF, mode 0: vram[0] becomes 0xFF. -/
theorem test_ldMDeA : after (exec .ldMDeA (at' 0 { g0 with d := 0x80, e := 0x00, a := 0xFF })) (fun t => t.ppu.vram) =
    some [(0, 0xFF)] := by decide

/-- R130: FA 41 FF reads STAT: with mode 2, 0x82. -/
theorem test_ldAMA16 : after (exec .ldAMA16 ((({ at' 2 g0 with ppu := State.reset.ppu } : State)).latched 0 0xFF41))
    (fun t => t.ctx.lat8) = some 0x82 := by decide

/-- R131: E0 47 with A = 0xFC sets bgp; E0 50 switches the overlay off. -/
theorem test_ldhMA8A : after (exec .ldhMA8A ((at' 1 { g0 with a := 0xFC }).latched 0x47 0)) (fun t => t.ppu.bgp) = some 0xFC ∧
    after (exec .ldhMA8A (({ at' 1 g0 with bootActive := true } : State).latched 0x50 0)) (fun t => t.bootActive) = some false := by
  decide

/-- R132: F0 44 gives `ly`. -/
theorem test_ldhAMA8 : after (exec .ldhAMA8 (({ at' 1 g0 with ppu := { State.reset.ppu with ly := 0x90 } } : State).latched 0x44 0))
    (fun t => t.ctx.lat8) = some 0x90 := by decide

/-- R133: C = 0xFF addresses IE. R134: C = 0x0F with IF = 0x01. -/
theorem test_highC : after (exec .ldMCA (at' 0 { g0 with c := 0xFF, a := 0x1F })) (fun t => t.irq.enable) = some 0x1F ∧
    after (exec .ldAMC { at' 0 { g0 with c := 0x0F } with irq := { ime := false, flags := 1, enable := 0 } }) (fun t => t.ctx.lat8) =
      some 1 := by decide

/-- R135: HL = 0x9FFF, A = 1, mode 0: the old HL is written and HL becomes 0xA000. R136: HL = 0x9FFF becomes 0x9FFE. -/
theorem test_ldMHlInc : after (exec .ldMHlIncA (at' 0 { g0 with h := 0x9F, l := 0xFF, a := 1 }))
      (fun t => (t.ppu.vram, t.regs.h, t.regs.l)) = some ([(0x1FFF, 1)], 0xA0, 0x00) ∧
    after (exec .ldMHlDecA (at' 0 { g0 with h := 0x9F, l := 0xFF, a := 1 })) (fun t => (t.ppu.vram, t.regs.h, t.regs.l)) =
      some ([(0x1FFF, 1)], 0x9F, 0xFE) := by decide

/-- R137, R138: HL = 0xC000 holding 0x11 gives 0x11 and HL = 0xC001, or 0xBFFF. -/
theorem test_ldAMHlInc : after (exec .ldAMHlInc (at' 0 { g0 with h := 0xC0, l := 0 } |>.ram 0xC000 0x11))
      (fun t => (t.ctx.lat8, t.regs.h, t.regs.l)) = some (0x11, 0xC0, 0x01) ∧
    after (exec .ldAMHlDec (at' 0 { g0 with h := 0xC0, l := 0 } |>.ram 0xC000 0x11)) (fun t => (t.ctx.lat8, t.regs.h, t.regs.l)) =
      some (0x11, 0xBF, 0xFF) := by decide

/-- R139: 08 00 C1 with SP = 0xD1F0 stores 0xF0 at 0xC100 and 0xD1 at 0xC101. -/
theorem test_ldMA16Sp : after (exec .ldMA16Sp ((at' 2 { g0 with sp := 0xD1F0 }).latched 0 0xC100)) (fun t => busRead t 0xC100) =
      some 0xF0 ∧
    after (exec .ldMA16Sp ((at' 3 { g0 with sp := 0xD1F0 }).latched 0 0xC100)) (fun t => busRead t 0xC101) = some 0xD1 := by decide

/-- R140: EA 00 C1 with A = 0x3C. -/
theorem test_ldMA16A : after (exec .ldMA16A ((at' 2 { g0 with a := 0x3C }).latched 0 0xC100)) (fun t => busRead t 0xC100) =
    some 0x3C := by decide

/-- R141: LD BC,0x1234 is 01 34 12 and gives B = 0x12, C = 0x34; the first byte read is the low one. -/
theorem test_ldBcD16 : after (exec .ldBcD16 ((at' 2 g0).latched 0 0x1234)) (fun t => (t.regs.b, t.regs.c)) = some (0x12, 0x34) ∧
    after (exec .ldBcD16 (at' 0 { g0 with pc := 0xC000 } |>.ram 0xC000 0x34)) (fun t => (t.ctx.lat16, t.regs.pc)) =
      some (0x0034, 0xC001) := by decide

/-- R142: HL = 0xDFF0 gives SP = 0xDFF0. -/
theorem test_ldSpHl : after (exec .ldSpHl (at' 0 { g0 with h := 0xDF, l := 0xF0 })) (fun t => t.regs.sp) = some 0xDFF0 := by decide

/-- R150: 0x0C with C = 0xFF, F = 0x10 gives C = 0x00, F = 0xB0. R152: 0x05 with B = 0x01 gives B = 0, F = 0xC0. -/
theorem test_incDec : after (exec .incC (at' 0 { g0 with c := 0xFF, f := 0x10 })) (fun t => (t.regs.c, t.regs.f)) = some (0x00, 0xB0) ∧
    after (exec .decB (at' 0 { g0 with b := 0x01 })) (fun t => (t.regs.b, t.regs.f)) = some (0x00, 0xC0) := by decide

/-- R151: 0x0F in memory gives 0x10 and F.H. R153: 0x00 gives 0xFF, N and H. -/
theorem test_incDecMem : after (exec .incMHl ((at' 1 { g0 with h := 0xC0 }).latched 0x0F 0)) (fun t => (busRead t 0xC000, t.regs.f)) =
      some (0x10, 0x20) ∧
    after (exec .decMHl ((at' 1 { g0 with h := 0xC0 }).latched 0x00 0)) (fun t => (busRead t 0xC000, t.regs.f)) = some (0xFF, 0x60) := by
  decide

/-- R154: DE = 0x00FF gives 0x0100. R155: BC = 0x0000 gives 0xFFFF, F unchanged. -/
theorem test_incDecPair : after (exec .incDe (at' 0 { g0 with e := 0xFF })) (fun t => (t.regs.d, t.regs.e)) = some (0x01, 0x00) ∧
    after (exec .decBc (at' 0 { g0 with f := 0xF0 })) (fun t => (t.regs.b, t.regs.c, t.regs.f)) = some (0xFF, 0xFF, 0xF0) := by decide

/-- R160: A = 0x3C, B = 0x2F gives F = 0x60; CP A gives 0xC0. -/
theorem test_cp : after (exec .cpB (at' 0 { g0 with a := 0x3C, b := 0x2F })) (fun t => (t.regs.a, t.regs.f)) = some (0x3C, 0x60) ∧
    after (exec .cpA (at' 0 { g0 with a := 0x5B, f := 0x30 })) (fun t => t.regs.f) = some 0xC0 := by decide

/-- R162, the source's example: A = 0x10, immediate 0x10: F = 0xC0. R161: the same of (HL). -/
theorem test_cpLatched : after (exec .cpD8 ((at' 1 { g0 with a := 0x10 }).latched 0x10 0)) (fun t => t.regs.f) = some 0xC0 ∧
    after (exec .cpMHl ((at' 1 { g0 with a := 0x00 }).latched 0x01 0)) (fun t => t.regs.f) = some 0x70 := by decide

/-- R165: C = 0x85, F.C = 0 gives C = 0x0A, F = 0x10; again gives 0x15, F = 0. -/
theorem test_rlC : after (exec .rlC (at' 0 { g0 with c := 0x85 })) (fun t => (t.regs.c, t.regs.f)) = some (0x0A, 0x10) ∧
    after (exec .rlC (at' 0 { g0 with c := 0x0A, f := 0x10 })) (fun t => (t.regs.c, t.regs.f)) = some (0x15, 0x00) := by decide

/-- R166: 0xFF, F.C = 0 gives 0xFE and F = 0x10. -/
theorem test_rlMHl : after (exec .rlMHl ((at' 1 { g0 with h := 0xC0 }).latched 0xFF 0)) (fun t => (busRead t 0xC000, t.regs.f)) =
    some (0xFE, 0x10) := by decide

/-- R167: BIT 7,H with H = 0x80, F = 0x10 gives F = 0x30; with H = 0x7F, 0xB0. R168: BIT 0,(HL) of 0xFE gives Z and H. -/
theorem test_bit : after (exec .bit7H (at' 0 { g0 with h := 0x80, f := 0x10 })) (fun t => t.regs.f) = some 0x30 ∧
    after (exec .bit7H (at' 0 { g0 with h := 0x7F, f := 0x10 })) (fun t => t.regs.f) = some 0xB0 ∧
    after (exec .bit0MHl ((at' 1 g0).latched 0xFE 0)) (fun t => t.regs.f) = some 0xA0 := by decide

/-- R176: JR NZ,-3 with PC 0xC005: taken to 0xC002; with Z set the instruction completes and fetches at 0xC005. -/
theorem test_jrNz : after (exec .jrNz ((at' 1 { g0 with pc := 0xC005 }).latched 0xFD 0)) (fun t => (t.regs.pc, t.ctx.mstep)) =
      some (0xC002, 2) ∧
    after (exec .jrNz ((at' 1 { g0 with pc := 0xC005, f := 0x80 }).latched 0xFD 0)) (fun t => (t.regs.pc, t.ctx.mstep)) =
      some (0xC006, 0) := by decide

/-- R175: e8 = 0xFE jumps to the JR's own opcode; the sum wraps (D8). -/
theorem test_jr : after (exec .jr ((at' 1 { g0 with pc := 0x0001 }).latched 0xFE 0)) (fun t => t.regs.pc) = some 0xFFFF := by decide

/-- R180: BC = 0x1234, SP = 0xD000 writes 0x12 to 0xCFFF; SP = 0 pushes into IE. -/
theorem test_pushBc : after (exec .pushBc (at' 1 { g0 with b := 0x12, c := 0x34, sp := 0xD000 })) (fun t => (busRead t 0xCFFF, t.regs.sp)) =
      some (0x12, 0xCFFF) ∧
    after (exec .pushBc (at' 1 { g0 with b := 0x12, c := 0x34, sp := 0 })) (fun t => (t.irq.enable, t.regs.sp)) = some (0x12, 0xFFFF) := by
  decide

/-- R181: POP AF with the low byte 0xFF gives F = 0xF0. -/
theorem test_popAf : after (exec .popAf ((at' 2 g0).latched 0 0x12FF)) (fun t => (t.regs.a, t.regs.f)) = some (0x12, 0xF0) := by decide

/-- R185: SP = 0xD000, PC = 0xC003: 0xC0 goes to 0xCFFF; cycle 5 fetches at the target. -/
theorem test_call : after (exec .call (at' 3 { g0 with sp := 0xD000, pc := 0xC003 })) (fun t => (busRead t 0xCFFF, t.regs.sp)) =
      some (0xC0, 0xCFFF) ∧
    after (exec .call ((at' 5 g0).ram 0xC010 0x04 |>.latched 0 0xC010)) (fun t => (t.ctx.opcode, t.regs.pc)) = some (0x04, 0xC011) := by
  decide

/-- R186: 0x03 at 0xCFFE is the low byte. R187: RETI sets `ime`. -/
theorem test_ret : after (exec .ret (at' 0 { g0 with sp := 0xCFFE } |>.ram 0xCFFE 0x03)) (fun t => (t.ctx.lat16, t.regs.sp)) =
      some (0x0003, 0xCFFF) ∧
    after (exec .reti (at' 3 g0)) (fun t => t.irq.ime) = some true := by decide

/-- R190, R191. -/
theorem test_eiDi : after (exec .ei (at' 0 g0)) (fun t => t.irq.ime) = some true ∧
    after (exec .di { at' 0 g0 with irq := { ime := true, flags := 0, enable := 0 } }) (fun t => t.irq.ime) = some false := by decide

/-- R108: CB 11 with C = 0x85: the tick of cycle 1 runs RL C; a second opcode 0x00 faults at the address of its byte. -/
theorem test_prefix : after (exec .prefixCb ((at' 1 { g0 with c := 0x85 }).latched 0x11 0)) (fun t => (t.regs.c, t.regs.f, t.ctx.cb)) =
      some (0x0A, 0x10, false) ∧
    after (exec .prefixCb (at' 1 { g0 with pc := 0xC002 })) (fun t => (t.phase, t.fault)) =
      some (.faulted, some { cb := true, opcode := 0x00, addr := 0xC001 }) := by decide

/-! ## The machine -/

/-- 95_test_vectors: the first tick is a bare Fetch of boot ROM byte 0; a zero byte then faults at address 0 (R262 (7)). -/
theorem test_boot : after (step State.reset) (fun t => (t.phase, t.ctx.opcode, t.regs.pc)) = some (.run, 0x00, 0x0001) ∧
    after (steps 2 State.reset) (fun t => (t.phase, t.fault)) =
      some (.faulted, some { cb := false, opcode := 0x00, addr := 0x0000 }) := by decide

/-- R50: object memory is locked at reset; R31: STAT reads 0x82. -/
theorem test_reset_bus : busRead State.reset 0xFE00 = 0xFF ∧ busRead State.reset 0xFF41 = 0x82 ∧ State.reset.pending = 0 := by decide

/-- R51: the echo. R56: unmapped. R55: the switch. -/
theorem test_bus : busRead (busWrite (at' 0 g0) 0xC000 0x5A) 0xE000 = 0x5A ∧ busRead State.reset 0xFEA0 = 0xFF ∧
    (busWrite State.reset 0xFF50 0).bootActive = false := by decide

/-- R224: the PPU on, OamScan with one tick left, enters Drawing with 43; off, nothing moves. -/
theorem test_ppu_step : ({ State.reset.ppu with lcdc := 0x91, cnt := 1 } : Ppu).step.1.mode = .drawing ∧
    ({ State.reset.ppu with lcdc := 0x91, cnt := 1 } : Ppu).step.1.cnt = 43 ∧ State.reset.ppu.step.1 = State.reset.ppu := by decide

/-- R227, R236: entering VBlank raises source 0, and source 1 when STAT bit 4 or a line match selects it. -/
theorem test_vblank_irq :
    ({ State.reset.ppu with lcdc := 0x80, mode := .hblank, cnt := 1, ly := 143 } : Ppu).step.2 = 1 ∧
    ({ State.reset.ppu with lcdc := 0x80, mode := .hblank, cnt := 1, ly := 143, statCfg := 2 } : Ppu).step.2 = 3 ∧
    ({ State.reset.ppu with lcdc := 0x80, mode := .hblank, cnt := 1, ly := 143, statCfg := 8, lyc := 144 } : Ppu).step.2 = 3 := by
  decide

/-- R231 and the scenario of 95_test_vectors: palette 0xFC maps colour 0 to 0xFF; in mode 0 index 0x80 is tile 0x80. -/
theorem test_pixel : ({ State.reset.ppu with lcdc := 0x91, bgp := 0xFC } : Ppu).pixel 0 0 = 0xFF ∧
    ({ State.reset.ppu with lcdc := 0x81, bgp := 0xE4, vram := [(0x800, 0x80), (0x1800, 0x80)] } : Ppu).pixel 0 0 = 0xAA := by decide

/-- R210: bits 7 to 5 never reach `pending`. R209: the external input. -/
theorem test_irq : ({ State.reset with irq := { ime := false, flags := 0xFF, enable := 0xFF } } : State).pending = 0x1F ∧
    (sampleExtIrq { State.reset with extIrq := [0x14] }).irq.flags = 0x14 := by decide

/-! ## Witnesses: the hypotheses of each statement are met, clause by clause -/

/-- A state about to run an opcode of the first table. -/
def run1 (op : Byte) : State := { at' 0 g0 with ctx := { (at' 0 g0).ctx with opcode := op } }

/-- A state about to run an opcode of the second table. -/
def run2 (op : Byte) : State := { at' 0 g0 with ctx := { (at' 0 g0).ctx with opcode := op, cb := true } }

/-- A state whose PC is at three bytes of working RAM. -/
def code (b0 b1 b2 : Byte) : State := (((at' 0 { g0 with pc := 0xC000 }).ram 0xC000 b0).ram 0xC001 b1).ram 0xC002 b2

theorem witness_DecodeInvertsEncode : (⟨.ldBcD16, .word 0xFFFF⟩ : Code).wellFormed = true ∧ (⟨.bit7A, .none⟩ : Code).wellFormed = true := by
  decide

theorem witness_EncodeInvertsDecode : decode (0xCB :: [0x7F, 0x01]) = .ok (⟨.bit7A, .none⟩, [0x01]) := by decide

theorem witness_FetchReadsTheByteAtPc : State.reset.phase = .boot := by decide

theorem witness_StepRunsDecodedInstruction :
    ((run1 0x04).phase = .run ∧ decodeOpcode (run1 0x04).ctx.cb (run1 0x04).ctx.opcode = some .incB) ∧
    (decode (bytesAtPc (code 0x3E 0x07 0x00)) = .ok (⟨.ldAD8, .byte 0x07⟩, [0x00]) ∧ (Instr.form .ldAD8).isCb = false) ∧
    (decode (bytesAtPc (code 0xCB 0x11 0x00)) = .ok (⟨.rlC, .none⟩, [0x00]) ∧ (Instr.form .rlC).isCb = true) := by decide

theorem witness_PrefixRedispatches :
    (at' 0 g0).ctx.mstep = 0 ∧ ((at' 1 g0).latched 0x10 0).ctx.mstep = 1 ∧ decodeOpcode true ((at' 1 g0).latched 0x10 0).ctx.lat8 = some .rlB ∧
    decodeOpcode true ((at' 1 g0).latched 0x0F 0).ctx.lat8 = none := by decide

/-- The ends of every list of rule R78, and a faulted state. -/
theorem witness_UnimplementedOpcodeHalts :
    (run1 0x00).phase = .run ∧ unimplemented (run1 0x00).ctx.cb (run1 0x00).ctx.opcode ∧ unimplemented false 0xFF ∧
    unimplemented true 0x0F ∧ unimplemented true 0x18 ∧ unimplemented true 0x3F ∧ unimplemented true 0x80 ∧
    (raiseUnimplemented State.reset).phase = .faulted := by unfold unimplemented; decide

theorem witness_OnlyUnimplementedOpcodesFault :
    after (step (run1 0x00)) (fun t => t.phase) = some .faulted ∧
    after (step { (at' 1 g0) with ctx := { (at' 1 g0).ctx with opcode := 0xCB } }) (fun t => t.phase) = some .faulted ∧
    after (step (raiseUnimplemented State.reset)) (fun t => t.phase) = some .faulted := by decide

theorem witness_EveryCycleCompletes : (at' 5 g0).ctx.mstep < lines (Instr.form .call) ∧ (at' 0 g0).ctx.mstep < lines (Instr.form .ldBB) := by
  decide

theorem witness_EveryStepKeepsInvariant : State.reset.Inv ∧ (run1 0x04).Inv ∧ (raiseUnimplemented (run1 0x00)).Inv :=
  ⟨by decide, by decide, by decide⟩

theorem witness_InstructionsTakeTheirCost :
    ((Instr.form .jrNz) ≠ .prefixCb ∧ (run1 0x20).phase = .run ∧ decodeOpcode (run1 0x20).ctx.cb (run1 0x20).ctx.opcode = some .jrNz ∧
      (run1 0x20).ctx.mstep = 0) ∧
    decodeOpcode (run2 0x16).ctx.cb (run2 0x16).ctx.opcode = some .rlMHl ∧
    ((code 0x46 0 0).phase = .run ∧ ({ code 0x46 0 0 with ctx := (run1 0xCB).ctx } : State).ctx.opcode = 0xCB ∧
      decodeOpcode true (busRead (code 0x46 0 0) (code 0x46 0 0).regs.pc) = some .bit0MHl) := by decide

theorem witness_RegisterLoads : Instr.form .ldHL = .ldRR .h .l ∧ (at' 0 g0).ctx.mstep = 0 := by decide

theorem witness_IndirectLoads : indLoad (Instr.form .ldAMHlDec) = some (.a, .hlDec) ∧ (at' 0 g0).ctx.mstep = 0 ∧ (at' 1 g0).ctx.mstep = 1 := by
  decide

theorem witness_IndirectStores : indStore (Instr.form .ldMCA) = some (.highC, .a) ∧ (at' 0 g0).ctx.mstep = 0 ∧ (at' 1 g0).ctx.mstep = 1 := by
  decide

theorem witness_ByteImmediateLoads : Instr.form .ldLD8 = .ldRD8 .l ∧ (at' 0 g0).ctx.mstep = 0 ∧ (at' 1 g0).ctx.mstep = 1 ∧
    (at' 2 g0).ctx.mstep = 2 := by decide

theorem witness_HighPageLoads : (Instr.ldhMA8A = .ldhMA8A ∨ Instr.ldhMA8A = .ldhAMA8) ∧ (at' 0 g0).ctx.mstep = 0 ∧
    (at' 1 g0).ctx.mstep = 1 ∧ (at' 2 g0).ctx.mstep = 2 := by decide

theorem witness_WordImmediateReadLowByteFirst : (Instr.form .call).immKind = .word ∧ (at' 0 g0).ctx.mstep = 0 ∧ (at' 1 g0).ctx.mstep = 1 := by
  decide

theorem witness_AbsoluteAndPairLoads : (at' 2 g0).ctx.mstep = 2 ∧ (at' 3 g0).ctx.mstep = 3 ∧ (at' 4 g0).ctx.mstep = 4 ∧
    Instr.form .ldSpD16 = .ldRrD16 .sp := by decide

theorem witness_IncDecRegister : (at' 0 g0).ctx.mstep = 0 ∧ Instr.form .incL = .incR .l ∧ Instr.form .decA = .decR .a := by decide

theorem witness_IncDecMemory : (Instr.decMHl = .incMHl ∨ Instr.decMHl = .decMHl) ∧ (at' 0 g0).ctx.mstep = 0 ∧ (at' 1 g0).ctx.mstep = 1 ∧
    (at' 2 g0).ctx.mstep = 2 := by decide

theorem witness_IncDecPair : Instr.form .incSp = .incRr .sp ∧ Instr.form .decHl = .decRr .hl ∧ (at' 0 g0).ctx.mstep = 0 ∧
    (at' 1 g0).ctx.mstep = 1 := by decide

theorem witness_IncThenDecRestores : (at' 0 g0).ctx.mstep = 0 ∧ Instr.form .incB = .incR .b ∧ Instr.form .decB = .decR .b ∧
    after (exec .incB (at' 0 g0)) (fun t => after (exec .decB t) (fun u => u.regs.b)) = some (some 0) := by decide

theorem witness_CompareChangesOnlyFlags : Instr.form .cpL = .cpR .l ∧ (at' 0 g0).ctx.mstep = 0 ∧ (at' 1 g0).ctx.mstep = 1 := by decide

theorem witness_RotateInstructions : Instr.form .rlA = .rlR .a ∧ (at' 0 g0).ctx.mstep = 0 ∧ (at' 1 g0).ctx.mstep = 1 ∧
    (at' 2 g0).ctx.mstep = 2 := by decide

theorem witness_BitTests : Instr.form .bit7A = .bitR 7 .a ∧ Instr.form .bit0MHl = .bitMHl 0 ∧ (at' 0 g0).ctx.mstep = 0 ∧
    (at' 1 g0).ctx.mstep = 1 := by decide

theorem witness_RelativeJumps : Instr.form .jr = .jr ∧ Instr.form .jrC = .jrCc .c ∧ branches (Instr.form .jrC) 0x10 = true ∧
    branches (Instr.form .jrC) 0x00 = false ∧ (at' 0 g0).ctx.mstep = 0 ∧ (at' 1 g0).ctx.mstep = 1 ∧ (at' 2 g0).ctx.mstep = 2 := by decide

theorem witness_PushCycles : Instr.form .pushAf = .pushRr .af ∧ (at' 0 g0).ctx.mstep = 0 ∧ (at' 1 g0).ctx.mstep = 1 ∧
    (at' 2 g0).ctx.mstep = 2 ∧ (at' 3 g0).ctx.mstep = 3 := by decide

theorem witness_PopAndReturnCycles : Instr.form .popAf = .popRr .af ∧ (at' 0 g0).ctx.mstep = 0 ∧ (at' 1 g0).ctx.mstep = 1 ∧
    (at' 2 g0).ctx.mstep = 2 ∧ (at' 3 g0).ctx.mstep = 3 := by decide

theorem witness_CallCycles : (at' 2 g0).ctx.mstep = 2 ∧ (at' 3 g0).ctx.mstep = 3 ∧ (at' 4 g0).ctx.mstep = 4 ∧ (at' 5 g0).ctx.mstep = 5 := by
  decide

theorem witness_EnableAndDisableInterrupts : (at' 0 g0).ctx.mstep = 0 := by decide

/-- A stack at the lower end of working RAM, and one across the end of working RAM and its echo. -/
theorem witness_PushThenPopMovesThePair :
    Instr.form .pushBc = .pushRr .bc ∧ Instr.form .popDe = .popRr .de ∧ (at' 0 { g0 with sp := 0xC002 }).MemoryInv ∧
    (at' 0 { g0 with sp := 0xC002 }).ctx.mstep = 0 ∧ (at' 0 { g0 with sp := 0xC002 }).target (0xC002 - 1) = .wram 1 ∧
    (at' 0 { g0 with sp := 0xC002 }).target (0xC002 - 2) = .wram 0 ∧
    after (cycles .pushBc 4 (at' 0 { g0 with b := 0x12, c := 0x34, sp := 0xE001 }))
      (fun t => after (cycles .popDe 3 t) (fun u => (u.regs.d, u.regs.e, u.regs.sp))) = some (some (0x12, 0x34, 0xE001)) := by decide

/-- Opcode 0xC5 (PUSH BC) in flight and 0xD1 (POP DE) at PC, the stack in the echo of working RAM. -/
def pushThenPop : State :=
  { code 0xD1 0 0 with
    ctx := (run1 0xC5).ctx
    regs := { (code 0xD1 0 0).regs with b := 0x12, c := 0x34, sp := 0xE003 } }

/-- The same as whole ticks. -/
theorem witness_PushThenPopMovesThePair_ticks : let s := pushThenPop
    (s.MemoryInv ∧ s.phase = .run ∧ s.ctx.mstep = 0 ∧ s.target (s.regs.sp - 1) = .wram 2 ∧
      s.target (s.regs.sp - 2) = .wram 1 ∧ decodeOpcode s.ctx.cb s.ctx.opcode = some .pushBc) ∧
    after (steps 4 s) (fun t => (decodeOpcode t.ctx.cb t.ctx.opcode, after (steps 3 t) (fun u => (u.regs.d, u.regs.e, u.regs.sp)))) =
      some (some .popDe, some (0x12, 0x34, 0xE003)) :=
  ⟨by decide, by decide⟩

/-- A stack at the upper end of high RAM. -/
theorem witness_CallThenReturnComesBack :
    (at' 0 { g0 with sp := 0xFFFF, pc := 0xC001 }).MemoryInv ∧ (at' 0 { g0 with sp := 0xFFFF }).target (0xFFFF - 1) = .hram 0x7E ∧
    (at' 0 { g0 with sp := 0xFFFF }).target (0xFFFF - 2) = .hram 0x7D ∧
    after (cycles .call 6 (at' 0 { g0 with sp := 0xFFFF, pc := 0xC001 }))
      (fun t => after (cycles .ret 4 t) (fun u => (u.regs.pc, u.regs.sp))) = some (some (0xC004, 0xFFFF)) := by decide

/-- CALL 0xC002 in flight, with 0xC9 (RET) at 0xC002, the stack in high RAM. -/
def callThenReturn : State :=
  { code 0x02 0xC0 0xC9 with
    ctx := (run1 0xCD).ctx
    regs := { (code 0x02 0xC0 0xC9).regs with sp := 0xFFFF } }

/-- The same as whole ticks. -/
theorem witness_CallThenReturnComesBack_ticks : let s := callThenReturn
    (s.MemoryInv ∧ s.phase = .run ∧ s.ctx.mstep = 0 ∧ s.target (s.regs.sp - 1) = .hram 0x7E ∧
      s.target (s.regs.sp - 2) = .hram 0x7D ∧ decodeOpcode s.ctx.cb s.ctx.opcode = some .call) ∧
    after (steps 6 s) (fun t => (decodeOpcode t.ctx.cb t.ctx.opcode, after (steps 4 t) (fun u => (u.regs.pc, u.regs.sp)))) =
      some (some .ret, some (0xC003, 0xFFFF)) := by decide

theorem witness_InstructionsWriteOnlyTheirRegisters :
    after (exec .incB (at' 0 g0)) (fun t => t.regs.b) = some 1 ∧ mayWrite (Instr.form .incB) (.reg .c) = false ∧
    mayWrite (Instr.form .incB) .sp = false ∧ mayWrite (Instr.form .incB) .ime = false ∧ mayWrite (Instr.form .ldBC) .f = false := by
  decide

/-- A form that stores nothing; a store, and an address it does not reach. -/
theorem witness_InstructionsChangeOnlyTheStoredByte :
    storeAddr (Instr.form .cpB) (at' 0 g0) = none ∧ storeAddr (Instr.form .ldMHlA) (at' 0 { g0 with h := 0xC0 }) = some 0xC000 ∧
    (at' 0 { g0 with h := 0xC0 }).target 0xC000 = .wram 0 ∧ (at' 0 { g0 with h := 0xC0 }).target 0xC001 ≠ .wram 0 ∧
    storeAddr (Instr.form .pushBc) (at' 2 { g0 with sp := 0 }) = some 0xFFFF := by decide

theorem witness_InstructionsLeavePpuStateAlone :
    after (exec .incB (at' 0 g0)) (fun t => t.ppu.mode) = some .hblank ∧ storeAddr (Instr.form .incB) (at' 0 g0) ≠ some 0xFF50 := by decide

/-- The ends of each range. -/
theorem witness_UnmappedAddressesAreOpenBus :
    unmappedAddress 0xFEA0 ∧ unmappedAddress 0xFEFF ∧ unmappedAddress 0xFF00 ∧ unmappedAddress 0xFF03 ∧ unmappedAddress 0xFF08 ∧
    unmappedAddress 0xFF0E ∧ unmappedAddress 0xFF10 ∧ unmappedAddress 0xFF3F ∧ unmappedAddress 0xFF46 ∧ unmappedAddress 0xFF4C ∧
    unmappedAddress 0xFF4F ∧ unmappedAddress 0xFF51 ∧ unmappedAddress 0xFF7F ∧ ¬ unmappedAddress 0xFF50 := by
  unfold unmappedAddress; omega

theorem witness_RamReadsBack : State.reset.MemoryInv ∧ busRead (busWrite State.reset 0xDDFF 7) 0xFDFF = 7 ∧
    busRead (busWrite State.reset 0xFDFF 7) 0xDDFF = 7 ∧ busRead (busWrite State.reset 0xFF80 7) 0xFF80 = 7 ∧
    busRead (busWrite State.reset 0xFFFE 7) 0xFFFE = 7 ∧ busRead (busWrite State.reset 0xDFFF 7) 0xDFFF = 7 ∧
    busRead (busWrite State.reset 0xFF80 7) 0xDF80 = 0 ∧ busRead (busWrite State.reset 0xDF80 7) 0xFF80 = 0 ∧
    busRead (busWrite State.reset 0xDE00 7) 0xFE00 = 0xFF := by decide

theorem witness_PpuMemoryLocks :
    State.reset.ppu.mode = .oamScan ∧ busRead (busWrite State.reset 0x9FFF 7) 0x9FFF = 7 ∧ busRead State.reset 0xFE9F = 0xFF ∧
    (at' 0 g0).ppu.mode = .hblank ∧ busRead (busWrite (at' 0 g0) 0xFE9F 7) 0xFE9F = 7 ∧ State.reset.ppu.vram.wf ∧ State.reset.ppu.oam.wf ∧
    busRead { State.reset with ppu := { State.reset.ppu with mode := .drawing } } 0x8000 = 0xFF := by decide

theorem witness_BootOverlay : State.reset.bootActive = true ∧ (at' 0 g0).bootActive = false ∧ busRead State.reset 0x00FF = 0 ∧
    after (steps 1 (run1 0x04)) (fun t => t.bootActive) = some false := by decide

theorem witness_PendingAndRaise : ({ State.reset with extIrq := [0x1F, 0x01] } : State).extIrq = 0x1F :: [0x01] ∧ State.reset.extIrq = [] := by
  decide

theorem witness_NothingReadsIme : after (steps 2 (run1 0xFB)) (fun t => t.irq.ime) = some true := by decide

/-- Off; counting with two ticks left; the six transitions. -/
theorem witness_PpuModeTransitions :
    State.reset.ppu.lcdc.getLsbD 7 = false ∧ ({ State.reset.ppu with lcdc := 0x80, cnt := 2 } : Ppu).lcdc.getLsbD 7 = true ∧
    ({ State.reset.ppu with lcdc := 0x80, mode := .drawing, cnt := 1 } : Ppu).step.1.mode = .hblank ∧
    ({ State.reset.ppu with lcdc := 0x80, mode := .hblank, cnt := 1, ly := 142 } : Ppu).step.1.mode = .oamScan ∧
    ({ State.reset.ppu with lcdc := 0x80, mode := .hblank, cnt := 1, ly := 143 } : Ppu).step.1.mode = .vblank ∧
    ({ State.reset.ppu with lcdc := 0x80, mode := .vblank, cnt := 1, ly := 152 } : Ppu).step.1.ly = 153 ∧
    ({ State.reset.ppu with lcdc := 0x80, mode := .vblank, cnt := 1, ly := 153 } : Ppu).step.1.frameComplete = true := by decide

theorem witness_PpuStepRaisesIntoIf : after (cpuStep (run1 0x04)) (fun t => (t.phase, t.nextExtIrq)) = some (.run, 0) ∧
    after (cpuStep { run1 0x04 with extIrq := [0x1F, 0x01] }) (fun t => (t.phase, t.nextExtIrq)) = some (.run, 0x1F) ∧
    after (step { run1 0x04 with extIrq := [0x1F, 0x01] }) (fun t => (t.irq.flags, t.extIrq)) = some (0x1F, [0x01]) := by decide

theorem witness_FramePeriod : let p : Ppu := { State.reset.ppu with lcdc := 0x80 }
    p.lcdc.getLsbD 7 = true ∧ p.mode = .oamScan ∧ p.cnt = 20 ∧ p.ly = 0 ∧ (Ppu.run 1 p).cnt = 19 := by decide

/-- The first and the last visible line, with LCDC bit 0 set and clear. -/
theorem witness_RenderedLine : let p : Ppu := { State.reset.ppu with lcdc := 0x81, mode := .drawing, cnt := 1, ly := 143 }
    p.lcdc.getLsbD 7 = true ∧ p.mode = .drawing ∧ p.cnt = 1 ∧ p.LineInv ∧ p.fb.wf ∧ p.lcdc.getLsbD 0 = true ∧
    ({ p with ly := 0, lcdc := 0x80 } : Ppu).LineInv ∧ ({ p with ly := 0, lcdc := 0x80 } : Ppu).lcdc.getLsbD 0 = false := by decide

theorem witness_PictureIgnoresOtherRegisters : SamePicture State.reset.ppu { State.reset.ppu with lcdc := 0x66, wx := 7, obp0 := 0xE4, lyc := 9 } :=
  ⟨rfl, rfl, rfl, rfl, rfl, rfl, rfl, rfl, rfl, rfl, rfl, rfl⟩

/-- A cartridge that keeps bytes from 0xA000 up and ignores writes below, and one of unknown behaviour. -/
theorem witness_OpaqueDevices : let d : Device := { kind := .keeps 0xA000, cells := [], log := [] }
    d.kind = .keeps 0xA000 ∧ d.cells.wf ∧ (d.write 0xA000 7).cells = [(0xA000, 7)] ∧ d.write 0x7FFF 7 = d ∧
    State.reset.dev.cart.kind = .unknown ∧ State.reset.dev.timer.kind = .unknown ∧ State.reset.target 0x0100 = .cart 0x0100 ∧ State.reset.target 0xBFFF = .cart 0xBFFF ∧
    State.reset.target 0xFF04 = .timer 0xFF04 ∧ State.reset.target 0xFF07 = .timer 0xFF07 := by decide

end Sys2Proof.Tests
end

section
/-!
PROOFS. The end of a tick (00_scope.md rule R5), said once as an equation: what the PPU step and the external interrupt input make
of the state the CPU step left. The frame of a tick and the account of its interrupts follow from it.
-/

namespace Sys2Proof.Machine

/-! ## The rest of a tick as an equation -/

/-- The external input takes the head of its list, which reads as 0 when the list is used up. -/
theorem sampleExtIrq_eq (s : State) :
    sampleExtIrq s = { raiseIrq s (s.nextExtIrq.zeroExtend 8) with extIrq := s.extIrq.tail } := by
  rcases s with ⟨_, _, _, _, _, _, _, _, _ | ⟨v, rest⟩⟩
  · simp [sampleExtIrq, State.nextExtIrq, raiseIrq]
  · rfl

/-- With PPU_IRQ on, its default (rule R236), a PPU step raises all its interrupts. -/
theorem ppuStep_eq (s : State) : ppuStep s = raiseIrq { s with ppu := s.ppu.step.1 } s.ppu.step.2 := rfl

theorem restOfTick_of_faulted {s : State} (h : s.phase = .faulted) : restOfTick s = s := by
  simp only [restOfTick, h]

theorem restOfTick_of_not_faulted {s : State} (h : s.phase ≠ .faulted) :
    restOfTick s = { s with
      ppu := s.ppu.step.1
      irq := { s.irq with flags := s.irq.flags ||| s.ppu.step.2 ||| s.nextExtIrq.zeroExtend 8 }
      extIrq := s.extIrq.tail } := by
  have hrest : restOfTick s = sampleExtIrq (ppuStep s) := by
    unfold restOfTick
    split
    · contradiction
    · rfl
    · rfl
  rw [hrest, sampleExtIrq_eq, ppuStep_eq]
  rfl

/-! ## A tick from its CPU step -/

theorem step_eq_asTick (s : State) : step s = asTick (cpuStep s) := rfl

theorem step_of_cpuStep {s t : State} (h : cpuStep s = .next t) : step s = .next (restOfTick t) := by
  rw [step_eq_asTick, h, asTick]

/-! ## The statements -/

/-- Flags that are ORed in, by the PPU and then from outside, clear none (rule R204). -/
theorem flags_and_raised (f ppu ext : Byte) : f &&& (f ||| ppu ||| ext) = f := by
  ext k hk
  simp only [BitVec.getElem_and, BitVec.getElem_or, Bool.or_assoc]
  exact inf_sup_self

/-- Settles O44: a faulted machine stands still; otherwise the equation of the rest of a tick names the PPU, IF and the external
input alone, and a PPU step keeps the memories and the registers the CPU writes. -/
theorem restOfTickLeavesCpuStateAlone : Obligations.RestOfTickLeavesCpuStateAlone := by
  intro s
  by_cases h : s.phase = .faulted
  · simp only [restOfTick_of_faulted h, BitVec.and_self, and_self]
  · have kept := s.ppu.step_kept
    rw [restOfTick_of_not_faulted h]
    exact ⟨rfl, rfl, rfl, rfl, rfl, rfl, rfl, rfl, kept.vram, kept.oam, kept.lcdc, kept.statCfg, kept.lyc, kept.scx, kept.scy,
      kept.wx, kept.wy, kept.bgp, kept.obp0, kept.obp1, flags_and_raised ..⟩

/-- Settles O55: a tick is the rest of a tick after its CPU step, which here has not faulted. -/
theorem ppuStepRaisesIntoIf : Obligations.PpuStepRaisesIntoIf := by
  intro s t hcpu hrun
  have running : t.phase ≠ .faulted := by simp only [hrun, ne_eq, reduceCtorEq, not_false_eq_true]
  rw [step_of_cpuStep hcpu, restOfTick_of_not_faulted running]

end Sys2Proof.Machine
end

section
/-!
PROOFS. The frame of one cycle (10_state.md, 40_engine_operands.md), said once for every form: which registers it may write and
what it may store. Then how PREFIX CB reaches the second table.
-/

namespace Sys2Proof.Machine

/-! ## What each update leaves of the registers, F, SP and `ime` -/

@[simp] theorem valueOf_setPc (s : State) (v w) : (s.setPc v).valueOf w = s.valueOf w := by
  cases w <;> simp [State.valueOf]

@[simp] theorem valueOf_setLat8 (s : State) (v w) : (s.setLat8 v).valueOf w = s.valueOf w := by cases w <;> rfl

@[simp] theorem valueOf_setLat16Lo (s : State) (v w) : (s.setLat16Lo v).valueOf w = s.valueOf w := by cases w <;> rfl

@[simp] theorem valueOf_setLat16Hi (s : State) (v w) : (s.setLat16Hi v).valueOf w = s.valueOf w := by cases w <;> rfl

@[simp] theorem valueOf_advance (s : State) (w) : s.advance.valueOf w = s.valueOf w := by cases w <;> rfl

@[simp] theorem valueOf_fetch (s : State) (w) : (fetch s).valueOf w = s.valueOf w := by
  cases w <;> simp [State.valueOf]

@[simp] theorem valueOf_busWrite (s : State) (a v w) : (busWrite s a v).valueOf w = s.valueOf w := by
  cases w <;> simp [State.valueOf]

theorem valueOf_setF {s : State} {v w} (h : w ≠ .f) : (s.setF v).valueOf w = s.valueOf w := by
  cases w <;> simp_all [State.valueOf]

theorem valueOf_setSp {s : State} {v w} (h : w ≠ .sp) : (s.setSp v).valueOf w = s.valueOf w := by
  cases w <;> simp_all [State.valueOf]

theorem valueOf_setIme {s : State} {b w} (h : w ≠ .ime) : (s.setIme b).valueOf w = s.valueOf w := by
  cases w <;> simp_all [State.valueOf]

theorem valueOf_set8 {s : State} {r v w} (h : w ≠ .reg r) : (s.set8 r v).valueOf w = s.valueOf w := by
  cases w with
  | reg q =>
    have hq : q ≠ r := fun e => h (by rw [e])
    simp [State.valueOf, Regs.get8_set8_ne _ _ hq]
  | _ => simp [State.valueOf]

theorem valueOf_set16 {s : State} {p v w} (h : pairWrites p w = false) : (s.set16 p v).valueOf w = s.valueOf w := by
  cases w with
  | reg q => cases p <;> cases q <;> first | rfl | simp [pairWrites] at h
  | _ => cases p <;> first | rfl | simp [pairWrites] at h

@[simp] theorem pairWrites_sp (w : Written) : pairWrites .sp w = decide (w = .sp) := rfl

/-! ## What each update leaves of the bus -/

/-- What the store of a cycle, if it stores, makes of the bus: of all the dispatcher reads, `x` differs from `s` by one byte
written at that address at most. -/
def StoredAt (addr : Option Word) (s x : State) : Prop :=
  match addr with
  | none => BusSame s x
  | some a => ∃ v, BusSame (busWrite s a v) x

/-- Where nothing is stored, the parts of the state the dispatcher reads are the same. -/
@[simp] theorem storedAt_none (s x : State) :
    StoredAt none s x ↔ x.ppu = s.ppu ∧ x.dev = s.dev ∧ x.bootActive = s.bootActive ∧ x.irq.flags = s.irq.flags ∧
      x.irq.enable = s.irq.enable :=
  ⟨fun ⟨hp, hd, hb, hf, he⟩ => ⟨hp, hd, hb, hf, he⟩, fun ⟨hp, hd, hb, hf, he⟩ => ⟨hp, hd, hb, hf, he⟩⟩

@[simp] theorem storedAt_advance (a : Option Word) (s x : State) : StoredAt a s x.advance ↔ StoredAt a s x := by
  cases a
  · simp
  · exact ⟨fun ⟨v, hp, hd, hb, hf, he⟩ => ⟨v, hp, hd, hb, hf, he⟩, fun ⟨v, hp, hd, hb, hf, he⟩ => ⟨v, hp, hd, hb, hf, he⟩⟩

@[simp] theorem storedAt_busWrite (s : State) (a v) : StoredAt (some a) s (busWrite s a v) := ⟨v, .refl _⟩

@[simp] theorem storedAt_pushByte (s : State) (v) : StoredAt (some (s.regs.sp - 1#16)) s (pushByte s v) :=
  ⟨v, BusSame.busWrite (s := s) (t := s.setSp (s.regs.sp - 1)) ⟨rfl, rfl, rfl, rfl, rfl⟩ ..⟩

@[simp] theorem storedAt_writeInd (s : State) (k v) : StoredAt (some (indAddr s k)) s (writeInd k v s) :=
  ⟨v, busSame_indUpdate ..⟩

@[simp] theorem storedAt_writeInd_setF (s : State) (v f) : StoredAt (some (indAddr s .hl)) s (writeInd .hl v (s.setF f)) :=
  ⟨v, BusSame.busWrite (s := s) (t := s.setF f) ⟨rfl, rfl, rfl, rfl, rfl⟩ ..⟩

/-! ## The frame of a cycle -/

/-- The frame of a cycle of a form: it writes what its rule lets it write, and stores where its rule says. -/
structure CycleFrame (f : Form) (s t : State) : Prop where
  kept : ∀ w, mayWrite f w = false → t.valueOf w = s.valueOf w
  stored : StoredAt (storeAddr f s) s t

/-- Every cycle of every listing but PREFIX CB's completes, within its form's frame: the lines of each listing one by one, by the
laws above of the updates a line is made of. JR cc is split on its condition first. -/
theorem execForm_frame (f : Form) (s : State) (hf : f ≠ .prefixCb) (h : s.ctx.mstep < lines f) :
    ∃ t, execForm f s = .next t ∧ CycleFrame f s t := by
  cases f
  case prefixCb => contradiction
  all_goals
    simp only [execForm, ldRegReg, ldRegInd, ldIndReg, ldRegImm8, ldIndImm8, ldADir16, ldDir8A, ldADir8, ldDir16A,
      ldDir16Sp, ldPairImm16, ldSpHl, incReg, decReg, incInd, decInd, incPair, decPair, cpReg, cpInd, cpImm8,
      compareWith, rlReg, rlInd, bitReg, bitInd, jumpRel, jumpRelIf, pushPair, popPair, callDir, returnPop,
      returnPopEnable, setIme]
    simp only [lines] at h
  case' jrCc cc => cases condHolds cc s.regs.f
  all_goals interval_cases hm : s.ctx.mstep
  all_goals
    refine ⟨_, rfl, fun w hw => ?_, ?_⟩
    · simp_all [mayWrite, readInd, writeInd, indUpdate, pushByte, popLow, popHigh, readImm8, readImm16Lo, readImm16Hi,
        branchTaken, valueOf_set8, valueOf_set16, valueOf_setF, valueOf_setSp, valueOf_setIme]
    · simp [storeAddr, hm, readInd, indUpdate, popLow, popHigh, readImm8, readImm16Lo, readImm16Hi, branchTaken]

/-! ## Dispatch and PREFIX CB (rules R91, R108) -/

theorem dispatch_of_some {s : State} {i : Instr} (h : decodeOpcode s.ctx.cb s.ctx.opcode = some i) : dispatch s = exec i s := by
  simp only [dispatch, h]

theorem dispatch_of_none {s : State} (h : decodeOpcode s.ctx.cb s.ctx.opcode = none) :
    dispatch s = .next (raiseUnimplemented s) := by
  simp only [dispatch, h]

theorem eq_prefixCb_of_form {i : Instr} (h : i.form = .prefixCb) : i = .prefixCb := by
  cases i <;> first | rfl | cases h

theorem form_ne_prefixCb_of_isCb {f : Form} (h : f.isCb = true) : f ≠ .prefixCb := by
  rintro rfl; cases h

theorem lines_pos (f : Form) : 0 < lines f := by cases f <;> simp only [lines, Nat.zero_lt_succ]

theorem exec_prefixCb_zero {s : State} (h : s.ctx.mstep = 0) : exec .prefixCb s = endCycle (readImm8 s) := by
  simp only [exec, execPrefixCb, h]

/-- The second cycle of PREFIX CB is a dispatch with the second opcode installed. -/
theorem exec_prefixCb_one {s : State} (h : s.ctx.mstep = 1) : exec .prefixCb s = dispatch (installSecond s) := by
  simp only [exec, execPrefixCb, h]
  cases hd : decodeOpcode true s.ctx.lat8 with
  | none => exact (redispatch_of_none hd).trans (dispatch_of_none hd).symm
  | some j => exact (redispatch_of_some hd).trans (dispatch_of_some hd).symm

/-- A dispatch into the second table runs an instruction of that table, or raises the fault. -/
theorem dispatch_cb_cases {u t : State} (hcb : u.ctx.cb = true) (h : dispatch u = .next t) :
    (∃ j, decodeOpcode u.ctx.cb u.ctx.opcode = some j ∧ j.form.isCb = true ∧ exec j u = .next t) ∨
    decodeOpcode u.ctx.cb u.ctx.opcode = none ∧ t = raiseUnimplemented u := by
  cases hd : decodeOpcode u.ctx.cb u.ctx.opcode with
  | none =>
    rw [dispatch_of_none hd] at h
    cases h
    exact .inr ⟨rfl, rfl⟩
  | some j =>
    rw [dispatch_of_some hd] at h
    exact .inl ⟨j, rfl, isCb_of_decodeOpcode_true (hcb ▸ hd), h⟩

/-- The two cycles of PREFIX CB. -/
theorem exec_prefixCb_cases {s t : State} (h : exec .prefixCb s = .next t) :
    s.ctx.mstep = 0 ∧ t = (readImm8 s).advance ∨ s.ctx.mstep = 1 ∧ dispatch (installSecond s) = .next t := by
  by_cases h2 : 2 ≤ s.ctx.mstep
  · rw [exec_of_not_next .prefixCb s h2] at h
    cases h
  · have h01 : s.ctx.mstep = 0 ∨ s.ctx.mstep = 1 := by omega
    rcases h01 with h0 | h1
    · rw [exec_prefixCb_zero h0] at h
      cases h
      exact .inl ⟨h0, rfl⟩
    · exact .inr ⟨h1, exec_prefixCb_one h1 ▸ h⟩

/-- What a cycle of an instruction, PREFIX CB included, can do. -/
theorem exec_cases {i : Instr} {s t : State} (h : exec i s = .next t) :
    CycleEnds i.form s t ∨ i = .prefixCb ∧ dispatch (installSecond s) = .next t := by
  by_cases hi : i.form = .prefixCb
  · obtain rfl := eq_prefixCb_of_form hi
    rcases exec_prefixCb_cases h with ⟨h0, rfl⟩ | ⟨-, hsecond⟩
    · exact .inl ⟨_, .readImm8 s, .inl ⟨rfl, by rw [h0]; decide⟩⟩
    · exact .inr ⟨rfl, hsecond⟩
  · exact .inl (exec_next_cases hi h)

/-- Every cycle of every listing completes, PREFIX CB's included (rule R203). -/
theorem exec_completes {i : Instr} {s : State} (h : s.ctx.mstep < lines i.form) : ∃ t, exec i s = .next t := by
  have notPrefix : ∀ {j : Instr} {u : State}, j.form ≠ .prefixCb → u.ctx.mstep < lines j.form → ∃ t, exec j u = .next t := by
    intro j u hj hu
    obtain ⟨t, ht, -⟩ := execForm_frame j.form u hj hu
    exact ⟨t, by rw [exec_eq_execForm, ht]⟩
  by_cases hi : i.form = .prefixCb
  · obtain rfl := eq_prefixCb_of_form hi
    have h01 : s.ctx.mstep = 0 ∨ s.ctx.mstep = 1 := by simp only [Instr.form, lines] at h; omega
    rcases h01 with h0 | h1
    · exact ⟨_, exec_prefixCb_zero h0⟩
    · rw [exec_prefixCb_one h1]
      cases hd : decodeOpcode true s.ctx.lat8 with
      | none => exact ⟨_, dispatch_of_none hd⟩
      | some j =>
        rw [dispatch_of_some (s := installSecond s) hd]
        exact notPrefix (form_ne_prefixCb_of_isCb (isCb_of_decodeOpcode_true hd)) (lines_pos _)
  · exact notPrefix hi h

/-! ## Inversions of the CPU step, the tick and the run -/

theorem cpuStep_cases {s t : State} (h : cpuStep s = .next t) :
    s.phase = .faulted ∧ t = s ∨ s.phase = .boot ∧ t = bootFetch s ∨
    s.phase = .run ∧ decodeOpcode s.ctx.cb s.ctx.opcode = none ∧ t = raiseUnimplemented s ∨
    s.phase = .run ∧ ∃ i, decodeOpcode s.ctx.cb s.ctx.opcode = some i ∧ exec i s = .next t := by
  unfold cpuStep at h
  split at h
  · next hp => cases h; exact .inl ⟨hp, rfl⟩
  · next hp => cases h; exact .inr (.inl ⟨hp, rfl⟩)
  · next hp =>
    cases hdec : decodeOpcode s.ctx.cb s.ctx.opcode with
    | none => rw [dispatch_of_none hdec] at h; cases h; exact .inr (.inr (.inl ⟨hp, rfl, rfl⟩))
    | some i => rw [dispatch_of_some hdec] at h; exact .inr (.inr (.inr ⟨hp, i, rfl, h⟩))

theorem step_eq_next {s t : State} (h : step s = .next t) : ∃ u, cpuStep s = .next u ∧ t = restOfTick u := by
  rw [step_eq_asTick] at h
  cases hcpu : cpuStep s with
  | next u => rw [hcpu] at h; cases h; exact ⟨u, rfl, rfl⟩
  | fault r | refused r => rw [hcpu] at h; cases h

theorem steps_succ_of_step {s u : State} (n : Nat) (h : step s = .next u) : steps (n + 1) s = steps n u := by
  simp only [steps, h]

theorem steps_succ_eq_next {n : Nat} {s t : State} (h : steps (n + 1) s = .next t) :
    ∃ u, step s = .next u ∧ steps n u = .next t := by
  rw [steps] at h
  split at h
  · next u hu => exact ⟨u, hu, h⟩
  · cases h
  · cases h

end Sys2Proof.Machine
end

section
/-!
PROOFS. The invariant of the machine (Safety.lean) is kept by every tick: the PPU's part by the mode machine (60_exceptions.md rules
R224 to R231), the memories by every bus write, the engine by every cycle, PREFIX CB's redispatch and the fault.
-/

namespace Sys2Proof.Machine

/-! ## The PPU's part -/

/-- What the invariant says of the PPU but for the countdown: the part a transition keeps. -/
structure Ppu.FrameInv (p : Ppu) : Prop where
  line : p.LineInv
  shades : p.ShadeInv
  wf : p.fb.wf
  below : p.fb.below Config.fbSize

/-- Rendering a visible line keeps the frame buffer's shades, canonical form and size. -/
theorem Ppu.frameInv_renderScanline {p : Ppu} (h : p.FrameInv) (hly : p.ly.toNat ≤ 143) :
    (∀ c ∈ renderScanline p, c.2 = 0xFF ∨ c.2 = 0xAA ∨ c.2 = 0x55 ∨ c.2 = 0x00) ∧ (renderScanline p).wf ∧
      (renderScanline p).below Config.fbSize := by
  unfold renderScanline
  split
  · refine ⟨fun c hc => ?_, p.wf_renderPixels _ _ h.wf, fun c hc => ?_⟩
    · rcases p.mem_renderPixels _ _ hc with ⟨x, -, -, hpix⟩ | hold
      · rw [hpix]; exact shadeByte_cases _
      · exact h.shades c hold
    · rcases p.mem_renderPixels _ _ hc with ⟨x, hx, hoff, -⟩ | hold
      · simp only [hoff, Config.fbSize]; omega
      · exact h.below c hold
  · exact ⟨h.shades, h.wf, h.below⟩

theorem toNat_succ {b : Byte} (h : b.toNat < 255) : (b + 1).toNat = b.toNat + 1 := by bv_omega

theorem Ppu.countInv_enter (p : Ppu) (m : PpuMode) : (p.enter m).CountInv := by
  constructor
  · cases m <;> simp [Ppu.enter, PpuMode.budget]
  · exact le_refl m.budget

/-- A mode entered on a new line: what is left to see is that the line is one of the mode's. -/
theorem Ppu.FrameInv.enterLine {p : Ppu} (h : p.FrameInv) (ly : Byte) (m : PpuMode)
    (line : if m = .vblank then 144 ≤ ly.toNat ∧ ly.toNat ≤ 153 else ly.toNat ≤ 143) : ((p.setLy ly).enter m).FrameInv :=
  ⟨line, h.shades, h.wf, h.below⟩

theorem Ppu.frameInv_leaveHBlank {p : Ppu} (h : p.FrameInv) (hly : p.ly.toNat ≤ 143) :
    p.leaveHBlank.1.FrameInv ∧ p.leaveHBlank.1.CountInv := by
  have hnext : (p.ly + 1).toNat = p.ly.toNat + 1 := toNat_succ (by omega)
  unfold Ppu.leaveHBlank
  dsimp only
  split
  · next h144 =>
    have line : (p.ly + 1).toNat = 144 := congrArg BitVec.toNat h144
    exact ⟨h.enterLine _ .vblank (by simp only [line]; decide), Ppu.countInv_enter ..⟩
  · next h144 =>
    have line : (p.ly + 1).toNat ≠ 144 := fun e => h144 (BitVec.eq_of_toNat_eq e)
    exact ⟨h.enterLine _ .oamScan (by simp only [reduceCtorEq, if_false]; omega), Ppu.countInv_enter ..⟩

theorem Ppu.frameInv_leaveVBlankLine {p : Ppu} (h : p.FrameInv) (hly : 144 ≤ p.ly.toNat ∧ p.ly.toNat ≤ 153) :
    p.leaveVBlankLine.1.FrameInv ∧ p.leaveVBlankLine.1.CountInv := by
  unfold Ppu.leaveVBlankLine
  split
  · obtain ⟨hl, hs, hw, hb⟩ := h.enterLine 0 .oamScan (by decide)
    exact ⟨⟨hl, hs, hw, hb⟩, Ppu.countInv_enter (p.setLy 0) .oamScan⟩
  · next h153 =>
    have hne : p.ly.toNat ≠ 153 := fun e => h153 (BitVec.eq_of_toNat_eq e)
    have hnext : (p.ly + 1).toNat = p.ly.toNat + 1 := toNat_succ (by omega)
    exact ⟨h.enterLine _ .vblank (by simp only [if_true]; omega), Ppu.countInv_enter ..⟩

/-- Every transition enters its mode on one of the mode's lines, with the mode's full budget (rules R225 to R228). -/
theorem Ppu.frameInv_transition {p : Ppu} (h : p.FrameInv) : p.transition.1.FrameInv ∧ p.transition.1.CountInv := by
  have hl := h.line
  unfold Ppu.transition
  split
  all_goals
    rename_i hm
    simp only [Ppu.LineInv, hm, reduceCtorEq, if_true, if_false] at hl
  · exact ⟨⟨hl, h.shades, h.wf, h.below⟩, Ppu.countInv_enter ..⟩
  · obtain ⟨hs, hw, hb⟩ := Ppu.frameInv_renderScanline h hl
    exact ⟨⟨hl, hs, hw, hb⟩, Ppu.countInv_enter ..⟩
  · exact Ppu.frameInv_leaveHBlank h hl
  · exact Ppu.frameInv_leaveVBlankLine h hl

/-- A PPU step that is no transition at most counts down, and stops short of 0. -/
theorem Ppu.frameInv_step {p : Ppu} (h : p.FrameInv) (hc : p.CountInv) : p.step.1.FrameInv ∧ p.step.1.CountInv := by
  obtain ⟨hl, hs, hw, hb⟩ := h
  rcases p.step_arm with ⟨-, hoff, -⟩ | ⟨-, hcnt, hcount, -⟩ | ⟨-, -, htrans⟩
  · rw [hoff]; exact ⟨⟨hl, hs, hw, hb⟩, hc⟩
  · rw [hcount]
    exact ⟨⟨hl, hs, hw, hb⟩, Nat.one_le_iff_ne_zero.2 hcnt, (Nat.sub_le ..).trans hc.2⟩
  · rw [htrans]
    exact Ppu.frameInv_transition ⟨hl, hs, hw, hb⟩

/-! ## The bus's part -/

/-- What the invariant says of the PPU and of the memories: all that is no register and no engine. -/
structure State.OffCpuInv (s : State) : Prop where
  line : s.ppu.LineInv
  count : s.ppu.CountInv
  shades : s.ppu.ShadeInv
  memory : s.MemoryInv

theorem inv_iff (s : State) : s.Inv ↔ s.FlagsInv ∧ s.EngineInv ∧ s.OffCpuInv :=
  ⟨fun ⟨hf, he, hl, hc, hs, hm⟩ => ⟨hf, he, hl, hc, hs, hm⟩, fun ⟨hf, he, hl, hc, hs, hm⟩ => ⟨hf, he, hl, hc, hs, hm⟩⟩

theorem BusSame.offCpuInv {s t : State} (h : BusSame s t) (hs : s.OffCpuInv) : t.OffCpuInv := by
  obtain ⟨hl, hc, hsh, hm⟩ := hs
  constructor <;> simpa only [State.MemoryInv, h.ppu, h.dev]

theorem offCpuInv_busWrite {s : State} (a : Word) (v : Byte) (hs : s.OffCpuInv) : (busWrite s a v).OffCpuInv := by
  obtain ⟨hl, hc, hsh, hm⟩ := hs
  obtain ⟨hmode, hcnt, hly, -, hfb, -⟩ := busWrite_ppuOwned s a v
  exact ⟨by simpa only [Ppu.LineInv, hmode, hly], by simpa only [Ppu.CountInv, hcnt, hmode], by simpa only [Ppu.ShadeInv, hfb],
    memoryInv_busWrite s a v hm⟩

theorem CycleBody.offCpuInv {s x : State} (b : CycleBody s x) (hs : s.OffCpuInv) : x.OffCpuInv := by
  obtain ⟨w, hw, same⟩ := b.bus
  rcases hw with rfl | ⟨a, v, rfl⟩
  · exact same.offCpuInv hs
  · exact same.offCpuInv (offCpuInv_busWrite a v hs)

/-! ## The CPU step -/

/-- At cycle 0 the engine's invariant holds whatever the opcode selects: every listing has a line. -/
theorem engineInv_of_mstep_zero {s : State} (h0 : s.ctx.mstep = 0) (hrun : s.phase = .run) (hfault : s.fault = none) :
    s.EngineInv :=
  ⟨fun _ i _ => h0 ▸ lines_pos i.form, fun _ => hfault, fun hf => by rw [hrun] at hf; cases hf⟩

/-- The end of a cycle leads to a later line of the same listing, the trailing fetch to cycle 0. -/
theorem inv_of_cycleEnds {s t : State} {i : Instr} (hs : s.Inv) (hrun : s.phase = .run)
    (hdec : decodeOpcode s.ctx.cb s.ctx.opcode = some i) (h : CycleEnds i.form s t) : t.Inv := by
  rw [inv_iff] at hs ⊢
  obtain ⟨hflags, ⟨-, hnofault, -⟩, hoff⟩ := hs
  have hfault := hnofault (by simp [hrun])
  obtain ⟨x, body, hend⟩ := h
  have hxrun := body.phase.trans hrun
  have hxfault := body.fault.trans hfault
  have hxoff := body.offCpuInv hoff
  rcases hend with ⟨rfl, hline⟩ | rfl
  · refine ⟨body.flags hflags, ⟨fun _ j hj => ?_, fun _ => hxfault, fun hf => ?_⟩,
      BusSame.offCpuInv (s := x) ⟨rfl, rfl, rfl, rfl, rfl⟩ hxoff⟩
    · have hij : j = i := by
        simp only [advance_ctx, body.cb, body.opcode, hdec] at hj
        cases hj; rfl
      rw [hij]
      simpa only [advance_ctx, body.mstep] using hline
    · rw [advance_phase, hxrun] at hf; cases hf
  · exact ⟨body.flags hflags, engineInv_of_mstep_zero rfl hxrun hxfault,
      BusSame.offCpuInv (s := x) ⟨rfl, rfl, rfl, rfl, rfl⟩ hxoff⟩

theorem inv_raiseUnimplemented {s : State} (hs : s.Inv) (hdec : decodeOpcode s.ctx.cb s.ctx.opcode = none) :
    (raiseUnimplemented s).Inv := by
  obtain ⟨hflags, -, hrest⟩ := hs
  exact ⟨hflags, ⟨fun h => (by cases h), fun h => absurd rfl h, fun _ => ⟨rfl, hdec⟩⟩, hrest⟩

theorem inv_installSecond {s : State} (hs : s.Inv) (hrun : s.phase = .run) : (installSecond s).Inv := by
  obtain ⟨hflags, ⟨-, hnofault, -⟩, hrest⟩ := hs
  exact ⟨hflags, engineInv_of_mstep_zero rfl hrun (hnofault (by simp [hrun])), hrest⟩

theorem inv_bootFetch {s : State} (hs : s.Inv) (hboot : s.phase = .boot) : (bootFetch s).Inv := by
  obtain ⟨hflags, ⟨-, hnofault, -⟩, hrest⟩ := hs
  exact ⟨hflags, engineInv_of_mstep_zero rfl rfl (hnofault (by simp [hboot])), hrest⟩

/-- A dispatch into the second table keeps the invariant. -/
theorem inv_of_dispatch_cb {u t : State} (hu : u.Inv) (hrun : u.phase = .run) (hcb : u.ctx.cb = true)
    (h : dispatch u = .next t) : t.Inv := by
  rcases dispatch_cb_cases hcb h with ⟨j, hdec, hj, hexec⟩ | ⟨hdec, rfl⟩
  · exact inv_of_cycleEnds hu hrun hdec (exec_next_cases (form_ne_prefixCb_of_isCb hj) hexec)
  · exact inv_raiseUnimplemented hu hdec

theorem inv_of_exec {i : Instr} {s t : State} (hs : s.Inv) (hrun : s.phase = .run)
    (hdec : decodeOpcode s.ctx.cb s.ctx.opcode = some i) (h : exec i s = .next t) : t.Inv := by
  rcases exec_cases h with hends | ⟨-, hsecond⟩
  · exact inv_of_cycleEnds hs hrun hdec hends
  · exact inv_of_dispatch_cb (inv_installSecond hs hrun) hrun rfl hsecond

/-- From the invariant the CPU steps, and its step keeps the invariant. -/
theorem cpuStep_keeps_inv {s : State} (hs : s.Inv) : ∃ t, cpuStep s = .next t ∧ t.Inv := by
  cases hp : s.phase with
  | faulted => exact ⟨s, by simp only [cpuStep, hp], hs⟩
  | boot => exact ⟨bootFetch s, by simp only [cpuStep, hp], inv_bootFetch hs hp⟩
  | run =>
    simp only [cpuStep, hp]
    cases hdec : decodeOpcode s.ctx.cb s.ctx.opcode with
    | none => exact ⟨_, dispatch_of_none hdec, inv_raiseUnimplemented hs hdec⟩
    | some i =>
      obtain ⟨-, ⟨hline, -⟩, -⟩ := id hs
      obtain ⟨t, ht⟩ := exec_completes (hline hp i hdec)
      exact ⟨t, dispatch_of_some hdec ▸ ht, inv_of_exec hs hp hdec ht⟩

/-! ## The rest of a tick -/

theorem restOfTick_keeps_inv {s : State} (hs : s.Inv) : (restOfTick s).Inv := by
  by_cases hp : s.phase = .faulted
  · rwa [restOfTick_of_faulted hp]
  · obtain ⟨hflags, hengine, hl, hc, hsh, hvram, hoam, hfb, hdev⟩ := hs
    obtain ⟨⟨hl', hsh', hw', hb'⟩, hc'⟩ := Ppu.frameInv_step ⟨hl, hsh, hfb.1, hfb.2⟩ hc
    have kept := s.ppu.step_kept
    rw [restOfTick_of_not_faulted hp]
    exact ⟨hflags, hengine, hl', hc', hsh', by simpa only [kept.vram], by simpa only [kept.oam], ⟨hw', hb'⟩, hdev⟩

/-- Settles O11: the CPU step keeps the invariant, and so does the rest of the tick. -/
theorem everyStepKeepsInvariant : Obligations.EveryStepKeepsInvariant := by
  intro s hs
  obtain ⟨t, hcpu, ht⟩ := cpuStep_keeps_inv hs
  exact ⟨restOfTick t, step_of_cpuStep hcpu, restOfTick_keeps_inv ht⟩

end Sys2Proof.Machine
end

section
/-!
PROOFS. Nothing reads `ime` (10_state.md rule R21, 60_exceptions.md rule R212): every operation commutes with setting it, so every
step does, but for the cycles that set it themselves.
-/

namespace Sys2Proof.Machine

/-! ## Every operation commutes with setting `ime` -/

@[simp] theorem setIme_setIme (s : State) (b c) : (s.setIme b).setIme c = s.setIme c := rfl
@[simp] theorem set8_setIme (s : State) (b r v) : (s.setIme b).set8 r v = (s.set8 r v).setIme b := rfl
@[simp] theorem set16_setIme (s : State) (b p v) : (s.setIme b).set16 p v = (s.set16 p v).setIme b := rfl
@[simp] theorem setF_setIme (s : State) (b v) : (s.setIme b).setF v = (s.setF v).setIme b := rfl
@[simp] theorem setPc_setIme (s : State) (b v) : (s.setIme b).setPc v = (s.setPc v).setIme b := rfl
@[simp] theorem setSp_setIme (s : State) (b v) : (s.setIme b).setSp v = (s.setSp v).setIme b := rfl
@[simp] theorem setLat8_setIme (s : State) (b v) : (s.setIme b).setLat8 v = (s.setLat8 v).setIme b := rfl
@[simp] theorem setLat16Lo_setIme (s : State) (b v) : (s.setIme b).setLat16Lo v = (s.setLat16Lo v).setIme b := rfl
@[simp] theorem setLat16Hi_setIme (s : State) (b v) : (s.setIme b).setLat16Hi v = (s.setLat16Hi v).setIme b := rfl
@[simp] theorem advance_setIme (s : State) (b) : (s.setIme b).advance = s.advance.setIme b := rfl
@[simp] theorem fetch_setIme (s : State) (b) : fetch (s.setIme b) = (fetch s).setIme b := rfl
@[simp] theorem bootFetch_setIme (s : State) (b) : bootFetch (s.setIme b) = (bootFetch s).setIme b := rfl

@[simp] theorem get8_setIme (s : State) (b r) : (s.setIme b).get8 r = s.get8 r := rfl
@[simp] theorem get16_setIme (s : State) (b p) : (s.setIme b).get16 p = s.get16 p := rfl
@[simp] theorem dir8Addr_setIme (s : State) (b) : dir8Addr (s.setIme b) = dir8Addr s := rfl
@[simp] theorem dir16Addr_setIme (s : State) (b) : dir16Addr (s.setIme b) = dir16Addr s := rfl
@[simp] theorem indAddr_setIme (s : State) (b k) : indAddr (s.setIme b) k = indAddr s k := by cases k <;> rfl
@[simp] theorem indUpdate_setIme (s : State) (b k) : indUpdate (s.setIme b) k = (indUpdate s k).setIme b := by
  cases k <;> rfl

@[simp] theorem busRead_setIme (s : State) (b a) : busRead (s.setIme b) a = busRead s a :=
  BusSame.busRead ⟨rfl, rfl, rfl, rfl, rfl⟩ a

@[simp] theorem busWrite_setIme (s : State) (b a v) : busWrite (s.setIme b) a v = (busWrite s a v).setIme b := by
  have same : (s.setIme b).target a = s.target a := rfl
  rw [busWrite, busWrite, same]
  cases s.target a with
  | vram off | oam off => simp only [writeTarget, setIme_ppu, apply_ite (State.setIme · b)]; rfl
  | _ => rfl

/-! ## Cycles and ticks -/

/-- A step that goes the same way whatever `ime` is, and whose answer differs in `ime` alone. -/
def IgnoresIme (g : State → Result) : Prop :=
  ∀ (s t : State) (b : Bool), g s = .next t → ∃ c, g (s.setIme b) = .next (t.setIme c)

/-- The cycles that write `ime` write a constant; every other cycle carries it along. -/
theorem execForm_setIme (f : Form) (s : State) (b : Bool) (hf : f ≠ .prefixCb) (h : s.ctx.mstep < lines f) :
    ∃ t c, execForm f s = .next t ∧ execForm f (s.setIme b) = .next (t.setIme c) := by
  cases f
  case prefixCb => contradiction
  all_goals
    simp only [execForm, ldRegReg, ldRegInd, ldIndReg, ldRegImm8, ldIndImm8, ldADir16, ldDir8A, ldADir8, ldDir16A,
      ldDir16Sp, ldPairImm16, ldSpHl, incReg, decReg, incInd, decInd, incPair, decPair, cpReg, cpInd, cpImm8,
      compareWith, rlReg, rlInd, bitReg, bitInd, jumpRel, jumpRelIf, pushPair, popPair, callDir, returnPop,
      returnPopEnable, setIme, setIme_ctx, setIme_regs]
    simp only [lines] at h
  case ei | di | reti => interval_cases hm : s.ctx.mstep <;> exact ⟨_, _, rfl, rfl⟩
  case' jrCc cc => by_cases hc : condHolds cc s.regs.f = true <;> simp only [hc, ↓reduceIte]
  all_goals interval_cases hm : s.ctx.mstep
  all_goals
    refine ⟨_, b, rfl, congrArg Host.Outcome.next ?_⟩
    simp [readInd, writeInd, readImm8, readImm16Lo, readImm16Hi, popLow, popHigh, pushByte, branchTaken]

theorem exec_ignoresIme_of_ne_prefixCb {i : Instr} (hi : i.form ≠ .prefixCb) : IgnoresIme (exec i) := by
  intro s t b h
  by_cases hl : s.ctx.mstep < lines i.form
  · obtain ⟨t', c, h', hb⟩ := execForm_setIme i.form s b hi hl
    rw [exec_eq_execForm, h'] at h
    cases h
    exact ⟨c, by rw [exec_eq_execForm, hb]⟩
  · rw [exec_of_not_next i s (by omega)] at h
    cases h

/-- A dispatch into the second table: `ime` is no part of the decode. -/
theorem dispatch_setIme_of_cb {u t : State} (b : Bool) (hcb : u.ctx.cb = true) (h : dispatch u = .next t) :
    ∃ c, dispatch (u.setIme b) = .next (t.setIme c) := by
  rcases dispatch_cb_cases hcb h with ⟨j, hdec, hj, hexec⟩ | ⟨hdec, rfl⟩
  · rw [dispatch_of_some (s := u.setIme b) hdec]
    exact exec_ignoresIme_of_ne_prefixCb (form_ne_prefixCb_of_isCb hj) u t b hexec
  · exact ⟨b, dispatch_of_none (s := u.setIme b) hdec⟩

theorem exec_ignoresIme (i : Instr) : IgnoresIme (exec i) := by
  by_cases hi : i.form = .prefixCb
  · obtain rfl := eq_prefixCb_of_form hi
    intro s t b h
    rcases exec_prefixCb_cases h with ⟨h0, rfl⟩ | ⟨h1, hsecond⟩
    · exact ⟨b, exec_prefixCb_zero (s := s.setIme b) h0⟩
    · rw [exec_prefixCb_one (s := s.setIme b) h1]
      exact dispatch_setIme_of_cb b (u := installSecond s) rfl hsecond
  · exact exec_ignoresIme_of_ne_prefixCb hi

theorem cpuStep_ignoresIme : IgnoresIme cpuStep := by
  intro s t b h
  rcases cpuStep_cases h with ⟨hp, rfl⟩ | ⟨hp, rfl⟩ | ⟨hp, hdec, rfl⟩ | ⟨hp, i, hdec, hexec⟩
  · exact ⟨b, by simp only [cpuStep, setIme_phase, hp]⟩
  · exact ⟨b, by simp only [cpuStep, setIme_phase, hp, bootFetch_setIme]⟩
  · simp only [cpuStep, setIme_phase, hp]
    exact ⟨b, dispatch_of_none (s := s.setIme b) hdec⟩
  · simp only [cpuStep, setIme_phase, hp]
    rw [dispatch_of_some (s := s.setIme b) hdec]
    exact exec_ignoresIme i s t b hexec

theorem restOfTick_setIme (s : State) (b : Bool) : restOfTick (s.setIme b) = (restOfTick s).setIme b := by
  by_cases hp : s.phase = .faulted
  · rw [restOfTick_of_faulted hp, restOfTick_of_faulted (s := s.setIme b) hp]
  · rw [restOfTick_of_not_faulted hp, restOfTick_of_not_faulted (s := s.setIme b) hp]
    rfl

theorem step_ignoresIme : IgnoresIme step := by
  intro s t b h
  obtain ⟨u, hcpu, rfl⟩ := step_eq_next h
  obtain ⟨c, hc⟩ := cpuStep_ignoresIme s u b hcpu
  exact ⟨c, by rw [step_of_cpuStep hc, restOfTick_setIme]⟩

/-- Settles O53, by induction on the number of ticks. -/
theorem nothingReadsIme : Obligations.NothingReadsIme := by
  intro n
  induction n with
  | zero =>
    intro s t b h
    cases h
    exact ⟨b, rfl⟩
  | succ n ih =>
    intro s t b h
    obtain ⟨u, hstep, hrest⟩ := steps_succ_eq_next h
    obtain ⟨c, hc⟩ := step_ignoresIme s u b hstep
    rw [steps_succ_of_step n hc]
    exact ih u t c hrest

end Sys2Proof.Machine
end

section
/-!
PROOFS. The frames of the instructions (10_state.md): what a cycle of any instruction, PREFIX CB included, leaves alone of the
registers, the PPU, the engine and the overlay flag; and the boot overlay (20_memory.md rules R47, R55).
-/

namespace Sys2Proof.Machine

/-! ## The frame of every instruction -/

/-- Cycle 0 of a second-table instruction stores nothing. -/
theorem storeAddr_of_isCb {f : Form} {s : State} (hcb : f.isCb = true) (h0 : s.ctx.mstep = 0) : storeAddr f s = none := by
  cases f with
  | rlR | rlMHl | bitR | bitMHl => simp only [storeAddr, h0]
  | _ => cases hcb

/-- What PREFIX CB's frame leaves alone, every second-table instruction leaves alone. -/
theorem mayWrite_of_isCb {f : Form} {w : Written} (hcb : f.isCb = true) (h : mayWrite .prefixCb w = false) :
    mayWrite f w = false := by
  cases w with
  | reg | f => cases h
  | sp | ime => cases f with
    | rlR | rlMHl | bitR | bitMHl => rfl
    | _ => cases hcb

theorem exec_frame_of_ne_prefixCb {i : Instr} {s t : State} (hi : i.form ≠ .prefixCb) (h : exec i s = .next t) :
    CycleFrame i.form s t := by
  by_cases hl : s.ctx.mstep < lines i.form
  · obtain ⟨t', h', frame⟩ := execForm_frame i.form s hi hl
    rw [exec_eq_execForm, h'] at h
    cases h
    exact frame
  · rw [exec_of_not_next i s (by omega)] at h
    cases h

/-- PREFIX CB keeps to its frame too: what it redispatches into writes no more than that. -/
theorem exec_frame {i : Instr} {s t : State} (h : exec i s = .next t) : CycleFrame i.form s t := by
  by_cases hi : i.form = .prefixCb
  · obtain rfl := eq_prefixCb_of_form hi
    rcases exec_prefixCb_cases h with ⟨-, rfl⟩ | ⟨-, hsecond⟩
    · exact ⟨fun w _ => by simp [readImm8], .mk rfl rfl rfl rfl rfl⟩
    · rcases dispatch_cb_cases rfl hsecond with ⟨j, -, hcb, hexec⟩ | ⟨-, rfl⟩
      · obtain ⟨kept, stored⟩ := exec_frame_of_ne_prefixCb (form_ne_prefixCb_of_isCb hcb) hexec
        rw [storeAddr_of_isCb hcb rfl] at stored
        exact ⟨fun w hw => (kept w (mayWrite_of_isCb hcb hw)).trans (by cases w <;> rfl),
          BusSame.trans (t := installSecond s) ⟨rfl, rfl, rfl, rfl, rfl⟩ stored⟩
      · exact ⟨fun w _ => by cases w <;> rfl, .mk rfl rfl rfl rfl rfl⟩
  · exact exec_frame_of_ne_prefixCb hi h

/-- Settles O41: it is one half of the frame of a cycle. -/
theorem instructionsWriteOnlyTheirRegisters : Obligations.InstructionsWriteOnlyTheirRegisters :=
  fun _ _ _ w h hw => (exec_frame h).kept w hw

/-! ## What a store leaves alone -/

theorem busWrite_bootRom (s : State) (a : Word) (v : Byte) : (busWrite s a v).dev.bootRom = s.dev.bootRom := by
  unfold busWrite
  cases s.target a with
  | vram off | oam off | bootSwitch => simp only [writeTarget]; split <;> rfl
  | _ => rfl

/-- The overlay flag changes only through the boot switch, which clears it. -/
theorem busWrite_bootActive (s : State) (a : Word) (v : Byte) :
    (busWrite s a v).bootActive = if s.target a = .bootSwitch then false else s.bootActive := by
  unfold busWrite
  cases s.target a with
  | vram off | oam off => simp only [writeTarget]; split <;> rfl
  | _ => rfl

theorem target_bootSwitch (s : State) : s.target 0xFF50 = .bootSwitch := target_high s (by decide)

/-- Only 0xFF50 selects the boot switch. -/
theorem eq_of_target_bootSwitch {s : State} {a : Word} (h : s.target a = .bootSwitch) : a = 0xFF50 := by
  by_cases h1 : a.toNat ≤ 0xFF ∧ s.bootActive = true
  · rw [target_bootRom s h1.1 h1.2] at h; cases h
  by_cases h2 : a.toNat ≤ 0x7FFF
  · rw [target_cart_low s h2 (by grind)] at h; cases h
  by_cases h3 : a.toNat ≤ 0x9FFF
  · rw [target_vram s (by omega)] at h; cases h
  by_cases h4 : a.toNat ≤ 0xBFFF
  · rw [target_cart_high s (by omega)] at h; cases h
  by_cases h5 : a.toNat ≤ 0xFDFF
  · rw [target_wram s (by omega)] at h; cases h
  by_cases h6 : a.toNat ≤ 0xFE9F
  · rw [target_oam s (by omega)] at h; cases h
  rw [target_high s (by omega)] at h
  by_contra hne
  have h7 : a.toNat ≠ 0xFF50 := fun e => hne (BitVec.eq_of_toNat_eq e)
  split_ifs at h
  rcases ppuRegAt_cases (a.toNat - 0xFF40) with ⟨r, e⟩ | e <;> rw [e] at h <;> cases h

/-- A store moves nothing that only the PPU step writes, and not the boot ROM. -/
theorem StoredAt.kept {addr : Option Word} {s x : State} (h : StoredAt addr s x) :
    (x.ppu.mode = s.ppu.mode ∧ x.ppu.cnt = s.ppu.cnt ∧ x.ppu.ly = s.ppu.ly ∧ x.ppu.lycEq = s.ppu.lycEq ∧
      x.ppu.fb = s.ppu.fb ∧ x.ppu.frameComplete = s.ppu.frameComplete) ∧ x.dev.bootRom = s.dev.bootRom := by
  cases addr with
  | none => rw [BusSame.ppu h, BusSame.dev h]; exact ⟨⟨rfl, rfl, rfl, rfl, rfl, rfl⟩, rfl⟩
  | some a =>
    obtain ⟨v, same⟩ := h
    rw [same.ppu, same.dev]
    exact ⟨busWrite_ppuOwned s a v, busWrite_bootRom s a v⟩

theorem StoredAt.bootActive {addr : Option Word} {s x : State} (h : StoredAt addr s x) (hne : addr ≠ some 0xFF50) :
    x.bootActive = s.bootActive := by
  cases addr with
  | none => exact BusSame.bootActive h
  | some a =>
    obtain ⟨v, same⟩ := h
    have noSwitch : s.target a ≠ .bootSwitch := fun e => hne (congrArg some (eq_of_target_bootSwitch e))
    rw [same.bootActive, busWrite_bootActive, if_neg noSwitch]

theorem StoredAt.bootActive_false {addr : Option Word} {s x : State} (h : StoredAt addr s x) (hs : s.bootActive = false) :
    x.bootActive = false := by
  cases addr with
  | none => exact (BusSame.bootActive h).trans hs
  | some a =>
    obtain ⟨v, same⟩ := h
    rw [same.bootActive, busWrite_bootActive, hs, ite_self]

/-! ## The engine -/

theorem CycleEnds.kept {f : Form} {s t : State} (h : CycleEnds f s t) :
    t.extIrq = s.extIrq ∧ t.phase = s.phase ∧ t.fault = s.fault := by
  obtain ⟨x, body, ⟨rfl, -⟩ | rfl⟩ := h
  · exact ⟨body.extIrq, body.phase, body.fault⟩
  · exact ⟨body.extIrq, body.phase, body.fault⟩

/-- The external input is never moved; the phase and the fault record only when PREFIX CB raises the fault. -/
theorem exec_engine_kept {i : Instr} {s t : State} (h : exec i s = .next t) :
    t.extIrq = s.extIrq ∧ (t.phase = s.phase ∧ t.fault = s.fault ∨ i = .prefixCb ∧ t.phase = .faulted) := by
  rcases exec_cases h with hends | ⟨rfl, hsecond⟩
  · exact ⟨hends.kept.1, .inl hends.kept.2⟩
  · rcases dispatch_cb_cases rfl hsecond with ⟨j, -, hcb, hexec⟩ | ⟨-, rfl⟩
    · have hends := exec_next_cases (form_ne_prefixCb_of_isCb hcb) hexec
      exact ⟨hends.kept.1, .inl hends.kept.2⟩
    · exact ⟨rfl, .inr ⟨rfl, rfl⟩⟩

/-- Settles O43: what a store moves is the other half of the frame, and the engine is kept by every cycle's end. -/
theorem instructionsLeavePpuStateAlone : Obligations.InstructionsLeavePpuStateAlone := by
  intro i s t h
  have stored := (exec_frame h).stored
  obtain ⟨⟨hmode, hcnt, hly, hlyc, hfb, hframe⟩, hrom⟩ := stored.kept
  obtain ⟨hext, hengine⟩ := exec_engine_kept h
  exact ⟨hmode, hcnt, hly, hlyc, hfb, hframe, hext, hrom, hengine, stored.bootActive⟩

/-! ## The boot overlay -/

theorem restOfTick_bootActive (s : State) : (restOfTick s).bootActive = s.bootActive := by
  by_cases hp : s.phase = .faulted
  · rw [restOfTick_of_faulted hp]
  · rw [restOfTick_of_not_faulted hp]

/-- No tick switches the overlay on. -/
theorem step_bootActive_false {s t : State} (h : step s = .next t) (hs : s.bootActive = false) : t.bootActive = false := by
  obtain ⟨u, hcpu, rfl⟩ := step_eq_next h
  rw [restOfTick_bootActive]
  rcases cpuStep_cases hcpu with ⟨-, rfl⟩ | ⟨-, rfl⟩ | ⟨-, -, rfl⟩ | ⟨-, i, -, hexec⟩
  · exact hs
  · exact hs
  · exact hs
  · exact (exec_frame hexec).stored.bootActive_false hs

theorem steps_bootActive_false {n : Nat} {s t : State} (hs : s.bootActive = false) (h : steps n s = .next t) :
    t.bootActive = false := by
  induction n generalizing s with
  | zero => cases h; exact hs
  | succ n ih =>
    obtain ⟨u, hstep, hrest⟩ := steps_succ_eq_next h
    exact ih (step_bootActive_false hstep hs) hrest

/-- Settles O51: the overlay stays off by induction on the ticks; the rest is what the range and 0xFF50 select. -/
theorem bootOverlay : Obligations.BootOverlay := by
  refine ⟨fun n s t hs h => steps_bootActive_false hs h, fun s a v ha => ⟨fun hb => ?_, fun hb => ?_, ?_, ?_⟩⟩
  · have hrom := target_bootRom s ha hb
    exact ⟨by rw [busRead, hrom]; rfl, by rw [busWrite, hrom]; rfl⟩
  · have hcart := target_cart_low s (a := a) (by omega) (.inl hb)
    exact ⟨by rw [busRead, hcart]; rfl, by rw [busWrite, hcart]; rfl⟩
  · rw [busRead, target_bootSwitch]; rfl
  · rw [busWrite, target_bootSwitch]; rfl

end Sys2Proof.Machine
end

section
/-!
PROOFS. The register file and the flags (10_state.md rules R12 to R14), and STAT read back (60_exceptions.md rule R237).
-/

namespace Sys2Proof.Machine

/-! ## Bytes joined and split -/

theorem toNat_append_eq {m n : Nat} (x : BitVec m) (y : BitVec n) : (x ++ y).toNat = 2 ^ n * x.toNat + y.toNat := by
  rw [BitVec.toNat_append, ← Nat.shiftLeft_add_eq_or_of_lt y.isLt, Nat.shiftLeft_eq, Nat.mul_comm]

theorem toNat_joinBytes (hi lo : Byte) : (joinBytes hi lo).toNat = 256 * hi.toNat + lo.toNat := toNat_append_eq hi lo

/-- Settles O13: a pair read joins its two bytes. -/
theorem pairReadsHighRegisterFirst : Obligations.PairReadsHighRegisterFirst :=
  fun _ => ⟨toNat_joinBytes .., toNat_joinBytes .., toNat_joinBytes .., toNat_joinBytes .., rfl⟩

/-- The mask 0xF0 keeps bits 7 to 4. -/
theorem loByte_and_F0 (v : Word) : loByte v &&& 0xF0 = v.extractLsb' 4 4 ++ 0#4 := by
  have mask : ∀ u : Byte, u &&& 0xF0 = u.extractLsb' 4 4 ++ 0#4 := by decide
  rw [mask, loByte, BitVec.extractLsb'_extractLsb'_of_le (by decide)]

/-- Settles O14: a pair write is the record update of its halves. -/
theorem pairWritesBothHalves : Obligations.PairWritesBothHalves := by
  intro g v
  refine ⟨rfl, rfl, rfl, ?_, rfl⟩
  rw [← loByte_and_F0]; rfl

/-! ## Flags -/

theorem toNat_getFlag (f : Byte) (x : Flag) : (getFlag f x).toNat = f.toNat / 2 ^ x.bit % 2 := Nat.toNat_testBit ..

/-- A flag's mask is its bit alone. -/
theorem getLsbD_flagMask (x : Flag) (k : Nat) : (1#8 <<< x.bit).getLsbD k = decide (k = x.bit) := by
  have hbit : x.bit < 8 := by cases x <;> decide
  rw [BitVec.getLsbD_shiftLeft, BitVec.getLsbD_one, Bool.eq_iff_iff]
  simp only [Nat.ofNat_pos, decide_true, Bool.true_and, Bool.and_eq_true, decide_eq_true_eq, Bool.not_eq_eq_eq_not,
    Bool.not_true, decide_eq_false_iff_not, not_lt]
  omega

theorem getLsbD_setFlag (x : Flag) (v : Bool) (f : Byte) (k : Nat) :
    (setFlag x v f).getLsbD k = if k = x.bit then v else f.getLsbD k := by
  cases v with
  | true =>
    rw [setFlag, if_pos rfl, BitVec.getLsbD_or, getLsbD_flagMask]
    by_cases hk : k = x.bit <;> simp [hk]
  | false =>
    rw [setFlag, if_neg Bool.false_ne_true, BitVec.getLsbD_and, BitVec.getLsbD_not, getLsbD_flagMask]
    by_cases hk : k = x.bit
    · simp [hk]
    · have inRange : f.getLsbD k = true → k < 8 := BitVec.lt_of_getLsbD
      simpa [hk] using inRange

/-- Settles O15: each flag is one bit of F, read and written alone. -/
theorem flagWriteChangesOneBit : Obligations.FlagWriteChangesOneBit := by
  intro f v k
  have hz := toNat_getFlag f .z
  have top : f.toNat / 2 ^ 7 % 2 = f.toNat / 128 := by omega
  exact ⟨hz.trans top, toNat_getFlag f .n, toNat_getFlag f .h, toNat_getFlag f .c,
    getLsbD_setFlag .z v f k, getLsbD_setFlag .n v f k, getLsbD_setFlag .h v f k, getLsbD_setFlag .c v f k⟩

/-! ## STAT -/

theorem target_stat (s : State) : s.target 0xFF41 = .ppuReg .stat :=
  (target_ppuReg s (by decide)).trans (congrArg ppuRegAt (by decide : (0xFF41#16).toNat - 0xFF40 = 1))

/-- STAT is assembled on read (rule R31). -/
theorem busRead_stat (s : State) : busRead s 0xFF41 = s.ppu.stat := by rw [busRead, target_stat]; rfl

theorem busWrite_stat (s : State) (v : Byte) :
    busWrite s 0xFF41 v = { s with ppu := { s.ppu with statCfg := v.extractLsb' 3 4 } } := by
  rw [busWrite, target_stat]; rfl

/-- The parts of STAT as digits. -/
theorem Ppu.toNat_stat (p : Ppu) :
    p.stat.toNat = 128 + p.statCfg.toNat * 8 + p.lycEq.toNat * 4 + p.mode.code.toNat := by
  simp only [Ppu.stat, toNat_append_eq, BitVec.toNat_ofBool, BitVec.reduceToNat]
  omega

/-- Settles O49: a write sets the configuration bits, and a read puts them between bit 7 and the live bits. -/
theorem statRoundTrip : Obligations.StatRoundTrip := by
  intro s v
  have written : (v.extractLsb' 3 4).toNat = v.toNat / 8 % 16 := by
    rw [BitVec.extractLsb'_toNat, Nat.shiftRight_eq_div_pow]
  rw [busWrite_stat, busRead_stat, Ppu.toNat_stat]
  simp only [written]
  cases s.ppu.mode <;> rfl

end Sys2Proof.Machine
end

section
/-!
PROOFS. The bus (20_memory.md): a store through the address decode, what it leaves alone and what reads back. From these the frame
of memory, RAM and its echo, the PPU's locks, the registers on the bus, open bus and the opaque devices.
-/

namespace Sys2Proof.Machine

/-! ## From the bus to its targets -/

theorem bus_of_target {s : State} {a : Word} {t : Target} (h : s.target a = t) (v : Byte) :
    busRead s a = readTarget s t ∧ busWrite s a v = writeTarget s t v := by
  subst h
  exact ⟨rfl, rfl⟩

/-- The overlay decides only what the range under it selects. -/
theorem target_of_above_overlay (s t : State) {a : Word} (h : 0xFF < a.toNat) : s.target a = t.target a := by
  simp only [State.target, decodeAddr, Nat.not_le.2 h, false_and, if_false]

/-- Only the boot switch changes what an address selects, and only below 0x0100 (rule R55). -/
theorem target_busWrite {s : State} {w a : Word} (v : Byte) (h : s.target w = .bootSwitch → 0xFF < a.toNat) :
    (busWrite s w v).target a = s.target a := by
  by_cases hsw : s.target w = .bootSwitch
  · exact target_of_above_overlay _ _ (h hsw)
  · rw [State.target, busWrite_bootActive, if_neg hsw, State.target]

/-! ## What a store leaves alone -/

theorem Ppu.readReg_writeReg_ne (p : Ppu) {r q : PpuReg} (v : Byte) (h : q ≠ r) :
    (p.writeReg r v).readReg q = p.readReg q := by
  cases r <;> cases q <;> first | rfl | contradiction

/-- A target that the store does not reach answers as before. -/
theorem readTarget_writeTarget_of_not_reached {s : State} {w a : Word} (v : Byte) (h : ¬ s.storeReaches w a) :
    readTarget (writeTarget s (s.target w) v) (s.target a) = readTarget s (s.target a) := by
  unfold State.storeReaches at h
  generalize s.target w = t at h ⊢
  generalize s.target a = u at h ⊢
  cases t with
  | bootRom off | bootSwitch | unmapped => rfl
  | cart b => cases u with
    | cart c => exact absurd ⟨c, rfl⟩ h
    | _ => rfl
  | timer b => cases u with
    | timer c => exact absurd ⟨c, rfl⟩ h
    | _ => rfl
  | wram off => cases u with
    | wram other => exact Memory.read_write_ne _ v fun e => h (congrArg _ e)
    | _ => rfl
  | hram off => cases u with
    | hram other => exact Memory.read_write_ne _ v fun e => h (congrArg _ e)
    | _ => rfl
  | vram off =>
    rw [writeTarget]
    split
    · rfl
    · cases u with
      | vram other => exact congrArg (ite _ openBus) (Memory.read_write_ne _ v fun e => h (congrArg _ e))
      | _ => rfl
  | oam off =>
    rw [writeTarget]
    split
    · rfl
    · cases u with
      | oam other => exact congrArg (ite _ openBus) (Memory.read_write_ne _ v fun e => h (congrArg _ e))
      | _ => rfl
  | intFlags => cases u with
    | intFlags => exact absurd rfl h
    | _ => rfl
  | intEnable => cases u with
    | intEnable => exact absurd rfl h
    | _ => rfl
  | ppuReg r => cases u with
    | ppuReg q => exact s.ppu.readReg_writeReg_ne v fun e => h (congrArg _ e)
    | _ => cases r <;> rfl

theorem busRead_busWrite_of_not_reached {s : State} {w a : Word} (v : Byte) (h : ¬ s.storeReaches w a) :
    busRead (busWrite s w v) a = busRead s a := by
  have hsw : s.target w = .bootSwitch → 0xFF < a.toNat := by
    intro e
    simp only [State.storeReaches, e] at h
    omega
  rw [busRead, target_busWrite v hsw]
  exact readTarget_writeTarget_of_not_reached v h

/-- Settles O42: a cycle stores what its frame says, and the dispatcher sees no other change. -/
theorem instructionsChangeOnlyTheStoredByte : Obligations.InstructionsChangeOnlyTheStoredByte := by
  intro i s t h
  have stored := (exec_frame h).stored
  refine ⟨fun hnone a => ?_, fun w hw a hreach => ?_⟩
  · rw [hnone] at stored
    exact BusSame.busRead stored a
  · rw [hw] at stored
    obtain ⟨v, same⟩ := stored
    rw [same.busRead, busRead_busWrite_of_not_reached v hreach]

/-! ## What reads back -/

theorem PpuMode.locksVram_iff (m : PpuMode) : m.locksVram = true ↔ m = .drawing := by cases m <;> decide

theorem PpuMode.locksOam_iff (m : PpuMode) : m.locksOam = true ↔ m = .drawing ∨ m = .oamScan := by cases m <;> decide

/-- A target that holds a byte as it is written: a RAM, or a PPU memory that is not locked, in canonical form. -/
def State.holdsByte (s : State) : Target → Prop
  | .wram _ => s.dev.wram.wf
  | .hram _ => s.dev.hram.wf
  | .vram _ => s.ppu.mode.locksVram = false ∧ s.ppu.vram.wf
  | .oam _ => s.ppu.mode.locksOam = false ∧ s.ppu.oam.wf
  | _ => False

theorem readTarget_writeTarget_same {s : State} {t : Target} (v : Byte) (h : s.holdsByte t) :
    readTarget (writeTarget s t v) t = v := by
  cases t with
  | wram off | hram off => exact Memory.read_write_same _ off v h
  | vram off | oam off =>
    obtain ⟨unlocked, wf⟩ := h
    simp only [writeTarget, readTarget, unlocked, Bool.false_eq_true, if_false, Memory.read_write_same _ off v wf]
  | _ => cases h

/-- A byte written reads back at every address of the same place. -/
theorem busRead_busWrite_of_holdsByte {s : State} {a b : Word} {t : Target} (v : Byte) (ht : s.holdsByte t)
    (ha : s.target a = t) (hb : s.target b = t) : busRead (busWrite s a v) b = v := by
  have notSwitch : s.target a ≠ .bootSwitch := by
    intro e
    rw [← ha, e] at ht
    exact ht
  rw [busRead, target_busWrite v (absurd · notSwitch), hb, busWrite, ha, readTarget_writeTarget_same v ht]

/-- In working RAM a store reaches the address and its echo partner (rule R51). -/
theorem storeReaches_wram {s : State} {a b : Word} (ha : 0xC000 ≤ a.toNat ∧ a.toNat ≤ 0xFDFF) (h : s.storeReaches a b) :
    b = a ∨ (0xC000 ≤ a.toNat ∧ a.toNat ≤ 0xDDFF ∧ b = a + 0x2000) ∨
      (0xE000 ≤ a.toNat ∧ a.toNat ≤ 0xFDFF ∧ b = a - 0x2000) := by
  simp only [State.storeReaches, target_wram s ha] at h
  obtain ⟨hb, sameOffset⟩ := wram_range s b _ h
  bv_omega

/-- In high RAM it reaches the address alone. -/
theorem storeReaches_hram {s : State} {a b : Word} (ha : 0xFF80 ≤ a.toNat ∧ a.toNat ≤ 0xFFFE) (h : s.storeReaches a b) :
    b = a := by
  simp only [State.storeReaches, target_hram s ha] at h
  obtain ⟨hb, sameOffset⟩ := hram_range s b _ h
  bv_omega

theorem busRead_busWrite_wram {s : State} {a b : Word} (v : Byte) (wf : s.dev.wram.wf)
    (ha : 0xC000 ≤ a.toNat ∧ a.toNat ≤ 0xFDFF) (hb : 0xC000 ≤ b.toNat ∧ b.toNat ≤ 0xFDFF)
    (sameOffset : b.toNat % 0x2000 = a.toNat % 0x2000) : busRead (busWrite s a v) b = v :=
  busRead_busWrite_of_holdsByte (t := .wram _) v wf (target_wram s ha) (sameOffset ▸ target_wram s hb)

/-- Settles O46: echo partners select one byte of working RAM, and a store reaches no other address. -/
theorem ramReadsBack : Obligations.RamReadsBack := by
  intro s a b v hinv ha
  obtain ⟨-, -, -, -, ⟨hwram, -⟩, ⟨hhram, -⟩, -, -⟩ := hinv
  rcases ha with ha | ha
  · refine ⟨busRead_busWrite_wram v hwram ha ha rfl,
      fun _ _ => busRead_busWrite_wram v hwram ha (by bv_omega) (by bv_omega),
      fun _ _ => busRead_busWrite_wram v hwram ha (by bv_omega) (by bv_omega),
      fun hne hup hdown => busRead_busWrite_of_not_reached v fun h => ?_⟩
    rcases storeReaches_wram ha h with same | up | down
    · exact hne same
    · exact hup up
    · exact hdown down
  · have hsel := target_hram s ha
    exact ⟨busRead_busWrite_of_holdsByte (t := .hram _) v hhram hsel hsel, fun _ _ => by omega, fun _ _ => by omega,
      fun hne _ _ => busRead_busWrite_of_not_reached v fun h => hne (storeReaches_hram ha h)⟩

theorem vram_locked {s : State} (off : Nat) (v : Byte) (h : s.ppu.mode.locksVram = true) :
    readTarget s (.vram off) = 0xFF ∧ writeTarget s (.vram off) v = s :=
  ⟨if_pos h, if_pos h⟩

theorem oam_locked {s : State} (off : Nat) (v : Byte) (h : s.ppu.mode.locksOam = true) :
    readTarget s (.oam off) = 0xFF ∧ writeTarget s (.oam off) v = s :=
  ⟨if_pos h, if_pos h⟩

theorem readTarget_vram {s : State} (off : Nat) (h : s.ppu.mode.locksVram = false) :
    readTarget s (.vram off) = s.ppu.vram.read off := by
  rw [readTarget, h, if_neg Bool.false_ne_true]

theorem readTarget_oam {s : State} (off : Nat) (h : s.ppu.mode.locksOam = false) :
    readTarget s (.oam off) = s.ppu.oam.read off := by
  rw [readTarget, h, if_neg Bool.false_ne_true]

/-- Settles O47: the mode locks the memory that the address selects, or leaves it a byte that reads back. -/
theorem ppuMemoryLocks : Obligations.PpuMemoryLocks := by
  refine fun s a v => ⟨fun ha => ?_, fun ha => ?_⟩
  · have hsel := target_vram s ha
    obtain ⟨hread, hwrite⟩ := bus_of_target hsel v
    refine ⟨fun hmode => ?_, fun hmode wf => ?_⟩
    · rw [hread, hwrite]
      exact vram_locked _ v (s.ppu.mode.locksVram_iff.2 hmode)
    · have unlocked : s.ppu.mode.locksVram = false := Bool.eq_false_iff.2 (mt s.ppu.mode.locksVram_iff.1 hmode)
      exact ⟨hread.trans (readTarget_vram _ unlocked),
        busRead_busWrite_of_holdsByte (t := .vram _) v ⟨unlocked, wf⟩ hsel hsel⟩
  · have hsel := target_oam s ha
    obtain ⟨hread, hwrite⟩ := bus_of_target hsel v
    refine ⟨fun hmode => ?_, fun hmode wf => ?_⟩
    · rw [hread, hwrite]
      exact oam_locked _ v (s.ppu.mode.locksOam_iff.2 hmode)
    · have unlocked : s.ppu.mode.locksOam = false := by rcases hmode with h | h <;> rw [h] <;> rfl
      exact ⟨hread.trans (readTarget_oam _ unlocked),
        busRead_busWrite_of_holdsByte (t := .oam _) v ⟨unlocked, wf⟩ hsel hsel⟩

/-! ## Open bus and the registers on the bus -/

theorem target_unmapped (s : State) {a : Word} (h : unmappedAddress a.toNat) : s.target a = .unmapped := by
  unfold unmappedAddress at h
  by_cases h46 : a.toNat = 0xFF46
  · rw [target_ppuReg s (by omega), h46]
    rfl
  · rw [target_high s (by omega), if_neg (by omega), if_neg (by omega), if_neg (by omega), if_neg (by omega),
      if_neg (by omega), if_neg (by omega)]

/-- Settles O45: such an address selects nothing. -/
theorem unmappedAddressesAreOpenBus : Obligations.UnmappedAddressesAreOpenBus :=
  fun s _ v h => bus_of_target (target_unmapped s h) v

/-- Settles O48: each address selects its register; STAT is assembled on read. -/
theorem ppuRegistersOnTheBus : Obligations.PpuRegistersOnTheBus := by
  intro s v
  have reg : ∀ {a : Word} (k : Nat), a.toNat = 0xFF40 + k → k ≤ 11 →
      busRead s a = readTarget s (ppuRegAt k) ∧ busWrite s a v = writeTarget s (ppuRegAt k) v := fun k ha hk =>
    bus_of_target ((target_ppuReg s (by omega)).trans (congrArg ppuRegAt (by omega))) v
  refine ⟨reg 0 rfl (by decide), ⟨?_, busWrite_stat s v⟩, reg 2 rfl (by decide), reg 3 rfl (by decide),
    reg 4 rfl (by decide), reg 5 rfl (by decide), reg 6 rfl (by decide), reg 7 rfl (by decide), reg 8 rfl (by decide),
    reg 9 rfl (by decide), reg 10 rfl (by decide), reg 11 rfl (by decide)⟩
  rw [busRead_stat, Ppu.stat]
  cases s.ppu.mode <;> rfl

theorem target_intFlags (s : State) : s.target 0xFF0F = .intFlags := target_high s (by decide)

theorem target_intEnable (s : State) : s.target 0xFFFF = .intEnable := target_high s (by decide)

/-- Settles O50: the two addresses select the two registers. -/
theorem interruptRegistersOnTheBus : Obligations.InterruptRegistersOnTheBus := by
  intro s v
  obtain ⟨readFlags, writeFlags⟩ := bus_of_target (target_intFlags s) v
  exact ⟨readFlags, writeFlags, bus_of_target (target_intEnable s) v⟩

/-! ## Opaque devices -/

section
variable {d : Device} {base : Nat} (hk : d.kind = .keeps base) (ans : Memory → List (Word × Byte) → Word → Byte)
include hk

theorem Device.read_of_keeps (a : Word) : d.read ans a = d.cells.read a.toNat := by
  simp only [Device.read, hk]

theorem Device.write_of_keeps (a : Word) (v : Byte) :
    d.write a v = if base ≤ a.toNat then { d with cells := d.cells.write a.toNat v } else d := by
  simp only [Device.write, hk]

theorem Device.write_of_keeps_below {a : Word} (v : Byte) (h : a.toNat < base) : d.write a v = d := by
  rw [Device.write_of_keeps hk, if_neg (by omega)]

theorem Device.read_write_same_of_keeps {a : Word} (v : Byte) (wf : d.cells.wf)
    (h : base ≤ a.toNat) : (d.write a v).read ans a = v := by
  rw [Device.write_of_keeps hk, if_pos h, Device.read_of_keeps (d := { d with cells := d.cells.write a.toNat v }) hk]
  exact Memory.read_write_same _ _ v wf

theorem Device.read_write_ne_of_keeps {a b : Word} (v : Byte) (h : b ≠ a) :
    (d.write a v).read ans b = d.read ans b := by
  rw [Device.write_of_keeps hk]
  split
  · rw [Device.read_of_keeps (d := { d with cells := d.cells.write a.toNat v }) hk, Device.read_of_keeps hk]
    exact Memory.read_write_ne _ v fun e => h (BitVec.eq_of_toNat_eq e)
  · rfl

end

theorem Device.read_write_of_unknown {d : Device} (hk : d.kind = .unknown)
    (ans : Memory → List (Word × Byte) → Word → Byte) (a b : Word) (v : Byte) :
    (d.write a v).read ans b = ans d.cells ((a, v) :: d.log) b := by
  simp only [Device.write, Device.read, hk]

/-- Settles O59: the ranges select their device, whose kind decides what it does. -/
theorem opaqueDevices : Obligations.OpaqueDevices := by
  refine fun s a b v => ⟨fun ha => ?_, fun ha => bus_of_target (target_timer s ha) v, fun d base ans hk wf => ?_,
    fun d ans hk => Device.read_write_of_unknown hk ans a b v⟩
  · rcases ha with ha | ha
    · exact bus_of_target (target_cart_low s ha.2 (.inr (by omega))) v
    · exact bus_of_target (target_cart_high s ha) v
  · exact ⟨Device.read_write_same_of_keeps hk ans v wf, Device.write_of_keeps_below hk v,
      Device.read_write_ne_of_keeps hk ans v⟩

end Sys2Proof.Machine
end

section
/-!
PROOFS. The decoder and the encoder are inverse (30_encoding.md). The table look-ups are compared with the bit patterns once, by
enumeration of the opcode bytes; the rest of the decoder is an inductive description with one constructor per path of rule R70.
-/

namespace Sys2Proof

open Machine

/-! ## The two tables against the bit patterns (rules R76 to R81) -/

/-- The laws of `Laws.OpcodeSelects` in one: the opcode of an instruction selects it in its own table. -/
theorem decodeOpcode_opcode (i : Instr) : decodeOpcode i.form.isCb i.opcode = some i := by cases i <;> rfl

/-- An opcode byte selects only the instruction that has it as its bit pattern. -/
theorem opcode_of_decodeOpcode {cb : Bool} {op : Byte} {i : Instr} (h : decodeOpcode cb op = some i) : i.opcode = op := by
  have all : ∀ cb : Bool, ∀ op : Byte, ∀ i ∈ decodeOpcode cb op, i.opcode = op := by decide
  exact all cb op i h

theorem decodeOpcode_prefix : decodeOpcode false 0xCB = some .prefixCb := decodeOpcode_opcode .prefixCb

/-- Rule R77 lists the bytes that have a handler in Grid 2. -/
theorem secondOpcodeImplemented_eq (op : Byte) : secondOpcodeImplemented op = (decodeOpcode true op).isSome := by
  have all : ∀ op : Byte, secondOpcodeImplemented op = (decodeOpcode true op).isSome := by decide
  exact all op

/-- Rule R78 lists the bytes that have no handler, in either table. -/
theorem decodeOpcode_eq_none_iff (cb : Bool) (op : Byte) : decodeOpcode cb op = none ↔ unimplemented cb op := by
  have firstListed : unimplementedFirst.all (fun op => (decodeOpcode false op).isNone) = true := by decide
  have firstComplete : ∀ op : Byte, decodeOpcode false op = none → op ∈ unimplementedFirst := by decide
  have second : ∀ op : Byte, decodeOpcode true op = none ↔
      op.toNat ≤ 0x0F ∨ (0x18 ≤ op.toNat ∧ op.toNat ≤ 0x3F) ∨ 0x80 ≤ op.toNat := by decide
  cases cb with
  | false =>
    have listed : op ∈ unimplementedFirst → decodeOpcode false op = none := by simpa using List.all_eq_true.mp firstListed op
    simpa [unimplemented] using ⟨firstComplete op, listed⟩
  | true => simpa [unimplemented] using second op

/-! ## Immediate parts (rule R75) -/

/-- The bytes an immediate part of each shape takes. -/
def ImmKind.size : ImmKind → Nat
  | .none => 0
  | .byte => 1
  | .word => 2

theorem Imm.length_bytes (imm : Imm) : imm.bytes.length = imm.kind.size := by cases imm <;> rfl

/-- No instruction of the second table has an immediate part. -/
theorem Form.immKind_of_isCb {f : Form} (h : f.isCb = true) : f.immKind = .none := by
  cases f <;> simp_all only [Form.isCb, Form.immKind, reduceCtorEq]

theorem Imm.eq_none_of_kind : ∀ {imm : Imm}, imm.kind = .none → imm = .none
  | .none, _ => rfl

/-- Taking an immediate part takes the bytes that it has, and it has the shape asked for. -/
theorem takeImm_eq_ok_iff {k : ImmKind} {bs rest : List Byte} {imm : Imm} :
    takeImm k bs = .ok (imm, rest) ↔ imm.kind = k ∧ imm.bytes ++ rest = bs := by
  constructor
  · intro h
    unfold takeImm at h
    split at h <;> cases h <;> simp [Imm.kind, Imm.bytes]
  · rintro ⟨rfl, rfl⟩
    cases imm <;> simp [Imm.kind, Imm.bytes, takeImm]

/-- The length rule R79 gives a first byte is the opcode and the immediate part, PREFIX CB's second opcode counted as one. -/
theorem lengthByFirstByte_of_decodeOpcode {op : Byte} {i : Instr} (h : decodeOpcode false op = some i) :
    lengthByFirstByte op = 1 + i.form.immKind.size := by
  have all : ∀ op : Byte, ∀ i ∈ decodeOpcode false op, lengthByFirstByte op = 1 + i.form.immKind.size := by decide
  exact all op i h

/-! ## Encodings and well-formedness -/

theorem encode_first {i : Instr} (imm : Imm) (h : i.form.isCb = false) : encode ⟨i, imm⟩ = i.opcode :: imm.bytes := by
  simp [encode, h]

theorem encode_second {i : Instr} (h : i.form.isCb = true) : encode ⟨i, .none⟩ = [0xCB, i.opcode] := by
  simp [encode, h, Imm.bytes]

/-- The immediate part fits, and the byte after a bare PREFIX CB selects nothing in the second table. -/
theorem Code.wellFormed_iff {i : Instr} {imm : Imm} : Code.wellFormed ⟨i, imm⟩ = true ↔
    imm.kind = i.form.immKind ∧ ∀ op2, i = .prefixCb → imm = .byte op2 → decodeOpcode true op2 = none := by
  have bare : Code.prefixBare ⟨i, imm⟩ = true ↔
      ∀ op2, i = .prefixCb → imm = .byte op2 → decodeOpcode true op2 = none := by
    unfold Code.prefixBare
    split <;> simp_all [secondOpcodeImplemented_eq]
  simp only [Code.wellFormed, Code.immFits, Bool.and_eq_true, beq_iff_eq, bare]

/-! ## The paths of the decoder (rule R70) -/

/-- `Decodes bs c rest`: the bytes `bs` start with the instruction `c`, and `rest` follows it. -/
inductive Decodes : List Byte → Code → List Byte → Prop where
  /-- An opcode of the first table other than PREFIX CB, and its immediate part. -/
  | first {op : Byte} {i : Instr} {imm : Imm} {rest : List Byte} (hop : decodeOpcode false op = some i) (hi : i ≠ .prefixCb)
      (hkind : imm.kind = i.form.immKind) : Decodes (op :: (imm.bytes ++ rest)) ⟨i, imm⟩ rest
  /-- PREFIX CB and an opcode of the second table. -/
  | second {op2 : Byte} {j : Instr} {rest : List Byte} (hop2 : decodeOpcode true op2 = some j) :
      Decodes (0xCB :: op2 :: rest) ⟨j, .none⟩ rest
  /-- PREFIX CB and a byte with no handler (log 14). -/
  | bare {op2 : Byte} {rest : List Byte} (hop2 : decodeOpcode true op2 = none) :
      Decodes (0xCB :: op2 :: rest) ⟨.prefixCb, .byte op2⟩ rest

theorem Decodes.decode_eq {bs rest : List Byte} {c : Code} (h : Decodes bs c rest) : decode bs = .ok (c, rest) := by
  cases h with
  | first hop hi hkind =>
    simp only [decode, hop, takeImm_eq_ok_iff.mpr ⟨hkind, rfl⟩]
    split
    · contradiction
    · rfl
  | second hop2 | bare hop2 => simp only [decode, decodeOpcode_prefix, Instr.form, Form.immKind, takeImm, hop2]

theorem decodes_of_decode {bs rest : List Byte} {c : Code} (h : decode bs = .ok (c, rest)) : Decodes bs c rest := by
  unfold decode at h
  split at h
  · cases h
  · next op bs =>
    split at h
    · cases h
    · next i hop =>
      split at h
      · cases h
      · next imm rest' himm =>
        obtain ⟨hkind, rfl⟩ := takeImm_eq_ok_iff.mp himm
        split at h
        · next op2 =>
          obtain rfl : 0xCB#8 = op := opcode_of_decodeOpcode hop
          split at h
          · next j hop2 => cases h; exact .second hop2
          · next hop2 => cases h; exact .bare hop2
        · next hne =>
          cases h
          refine .first hop (fun hi => ?_) hkind
          subst hi
          cases imm with
          | byte op2 => exact hne op2 rfl rfl
          | none | word => cases hkind

/-! ## The statements -/

/-- Every well-formed instruction is on one of the decoder's paths. -/
theorem decodes_encode {c : Code} (rest : List Byte) (h : c.wellFormed = true) : Decodes (encode c ++ rest) c rest := by
  obtain ⟨i, imm⟩ := c
  obtain ⟨hfits, hbare⟩ := Code.wellFormed_iff.mp h
  have hop := decodeOpcode_opcode i
  cases hcb : i.form.isCb with
  | true =>
    obtain rfl := Imm.eq_none_of_kind (hfits.trans (Form.immKind_of_isCb hcb))
    rw [encode_second hcb]
    exact .second (hcb ▸ hop)
  | false =>
    rw [encode_first imm hcb]
    by_cases hi : i = .prefixCb
    · subst hi
      cases imm with
      | byte op2 => exact .bare (hbare op2 rfl rfl)
      | none | word => cases hfits
    · exact .first (hcb ▸ hop) hi hfits

/-- Settles O2: the encoding is on a path of the decoder. -/
theorem decodeInvertsEncode : Obligations.DecodeInvertsEncode :=
  fun _ rest h => (decodes_encode rest h).decode_eq

theorem Decodes.wellFormed {bs rest : List Byte} {c : Code} (h : Decodes bs c rest) : c.wellFormed = true := by
  cases h with
  | first hop hi hkind => exact Code.wellFormed_iff.mpr ⟨hkind, fun _ hprefix => absurd hprefix hi⟩
  | second hop2 =>
    have noImm := Form.immKind_of_isCb (isCb_of_decodeOpcode_true hop2)
    exact Code.wellFormed_iff.mpr ⟨noImm.symm, fun _ _ hbyte => nomatch hbyte⟩
  | bare hop2 => exact Code.wellFormed_iff.mpr ⟨rfl, fun _ _ hbyte => Imm.byte.inj hbyte ▸ hop2⟩

theorem Decodes.encode_append {bs rest : List Byte} {c : Code} (h : Decodes bs c rest) : encode c ++ rest = bs := by
  cases h with
  | first hop => rw [encode_first _ (isCb_of_decodeOpcode_false hop), opcode_of_decodeOpcode hop]; rfl
  | second hop2 => rw [encode_second (isCb_of_decodeOpcode_true hop2), opcode_of_decodeOpcode hop2]; rfl
  | bare => rfl

theorem Decodes.length_encode {op : Byte} {bs rest : List Byte} {c : Code} (h : Decodes (op :: bs) c rest) :
    (encode c).length = lengthByFirstByte op := by
  cases h with
  | first hop hi hkind =>
    rw [lengthByFirstByte_of_decodeOpcode hop, ← hkind, ← Imm.length_bytes, encode_first _ (isCb_of_decodeOpcode_false hop),
      List.length_cons, Nat.add_comm]
  | second hop2 => rw [lengthByFirstByte_of_decodeOpcode decodeOpcode_prefix, encode_second (isCb_of_decodeOpcode_true hop2)]; rfl
  | bare => rfl

/-- Settles O3: each path of the decoder gives a well-formed instruction, its bytes and their number. -/
theorem encodeInvertsDecode : Obligations.EncodeInvertsDecode := by
  intro op bs rest c h
  have path := decodes_of_decode h
  exact ⟨path.wellFormed, path.encode_append, path.length_encode⟩

/-- Settles O1, by evaluating the decoder on the six words. -/
theorem writtenWordsDecode : Obligations.WrittenWordsDecode := by
  unfold Obligations.WrittenWordsDecode
  decide

end Sys2Proof
end

section
/-!
PROOFS. The fault (60_exceptions.md rules R200, R201): an opcode of rule R78 raises it at its decode, and it is permanent.
-/

namespace Sys2Proof.Machine

theorem cpuStep_of_decodeOpcode_none {s : State} (hrun : s.phase = .run) (h : decodeOpcode s.ctx.cb s.ctx.opcode = none) :
    cpuStep s = .next (raiseUnimplemented s) := by
  simp only [cpuStep, hrun, dispatch_of_none h]

/-- A faulted machine does not move in a tick. -/
theorem step_of_faulted {s : State} (h : s.phase = .faulted) : step s = .next s := by
  have hcpu : cpuStep s = .next s := by simp only [cpuStep, h]
  rw [step_of_cpuStep hcpu, restOfTick_of_faulted h]

theorem steps_of_faulted {s : State} (n : Nat) (h : s.phase = .faulted) : steps n s = .next s := by
  induction n with
  | zero => rfl
  | succ n ih => rw [steps_succ_of_step n (step_of_faulted h), ih]

theorem drawnFrame_of_faulted {s : State} (h : s.phase = .faulted) : s.drawnFrame = none := by
  simp only [State.drawnFrame, h, ne_eq, not_true_eq_false, and_false, if_false]

/-- Settles O7: the decode finds no handler, and the fault it raises ends the tick and every later one. -/
theorem unimplementedOpcodeHalts : Obligations.UnimplementedOpcodeHalts := by
  refine ⟨fun s hrun hop => ?_, fun s n h => ⟨steps_of_faulted n h, drawnFrame_of_faulted h⟩⟩
  rw [step_of_cpuStep (cpuStep_of_decodeOpcode_none hrun ((decodeOpcode_eq_none_iff ..).mpr hop)), restOfTick_of_faulted rfl]
  rfl

end Sys2Proof.Machine
end

section
/-!
PROOFS. The engine (40_engine_operands.md): Fetch, the step from decode to exec, PREFIX CB, the operand kinds, and the ticks an
instruction takes.
-/

namespace Sys2Proof.Machine

/-! ## Fetch and the dispatch of a step (rules R90 to R92) -/

/-- Settles O4: the CPU step of phase Boot is a Fetch, whose parts are those of its definition. -/
theorem fetchReadsTheByteAtPc : Obligations.FetchReadsTheByteAtPc := by
  intro s
  refine ⟨fun hboot => ?_, rfl, rfl, rfl, rfl, rfl, rfl, rfl⟩
  have hcpu : cpuStep s = .next (bootFetch s) := by simp only [cpuStep, hboot]
  exact step_of_cpuStep hcpu

theorem step_of_run {s : State} (hrun : s.phase = .run) : step s = asTick (dispatch s) := by
  simp only [step_eq_asTick, cpuStep, hrun]

theorem step_of_decodeOpcode {s : State} {i : Instr} (hrun : s.phase = .run)
    (hdec : decodeOpcode s.ctx.cb s.ctx.opcode = some i) : step s = asTick (exec i s) := by
  rw [step_of_run hrun, dispatch_of_some hdec]

/-! ## PREFIX CB (rule R108) -/

/-- Settles O6: cycle 0 reads an immediate byte; cycle 1 is a dispatch with that byte installed as second opcode. -/
theorem prefixRedispatches : Obligations.PrefixRedispatches := by
  refine fun s => ⟨fun h0 => ?_, fun h1 i hdec => ?_, fun h1 hdec => ?_⟩
  · rw [exec_prefixCb_zero h0, endCycle, State.advance]
    simp only [readImm8, setPc_ctx, setLat8_ctx, h0]
    rfl
  · exact (exec_prefixCb_one h1).trans (dispatch_of_some hdec)
  · exact (exec_prefixCb_one h1).trans (dispatch_of_none hdec)

section
variable {s : State} (hrun : s.phase = .run) (hcb : s.ctx.cb = false) (hop : s.ctx.opcode = 0xCB)
include hrun hcb hop

theorem step_of_prefixCb : step s = asTick (exec .prefixCb s) :=
  step_of_decodeOpcode hrun (by rw [hcb, hop]; exact decodeOpcode_prefix)

/-- The tick that reads the second opcode leaves PREFIX CB in flight, the opcode read in `lat8`, PC past it. -/
theorem step_of_prefixCb_zero (h0 : s.ctx.mstep = 0) :
    ∃ t, step s = .next t ∧ t.phase = .run ∧ t.regs = { s.regs with pc := s.regs.pc + 1 } ∧
      t.ctx = { s.ctx with lat8 := busRead s s.regs.pc, mstep := 1 } := by
  refine ⟨restOfTick (readImm8 s).advance, ?_, ?_, ?_, ?_⟩
  · rw [step_of_prefixCb hrun hcb hop, exec_prefixCb_zero h0]; rfl
  · rw [restOfTick_phase]; exact hrun
  · rw [restOfTick_regs]; rfl
  · simp [restOfTick_ctx, readImm8, h0]

/-- The tick of cycle 1 is the tick of the second-table instruction's own cycle 0. -/
theorem step_of_prefixCb_one (h1 : s.ctx.mstep = 1) : step s = step (installSecond s) := by
  rw [step_of_prefixCb hrun hcb hop, exec_prefixCb_one h1]
  exact (step_of_run (s := installSecond s) hrun).symm

end

/-! ## From the bytes at PC to the instruction that runs -/

theorem decodeOpcode_false_of_decodes {op : Byte} {bs rest : List Byte} {c : Code} (h : Decodes (op :: bs) c rest)
    (hcb : c.instr.form.isCb = false) : decodeOpcode false op = some c.instr := by
  cases h with
  | first hop => exact hop
  | second hop2 => exact absurd (isCb_of_decodeOpcode_true hop2) (by simp [hcb])
  | bare => exact decodeOpcode_prefix

theorem decodeOpcode_true_of_decodes {op op2 : Byte} {bs rest : List Byte} {c : Code}
    (h : Decodes (op :: op2 :: bs) c rest) (hcb : c.instr.form.isCb = true) :
    op = 0xCB ∧ decodeOpcode true op2 = some c.instr := by
  generalize hbytes : op :: op2 :: bs = bytes at h
  cases h with
  | first hop => exact absurd (isCb_of_decodeOpcode_false hop) (by simp [hcb])
  | second hop2 => cases hbytes; exact ⟨rfl, hop2⟩
  | bare => cases hcb

/-- Settles O5: the path of the decoder on the bytes at PC says what the opcode that Fetch stores selects. -/
theorem stepRunsDecodedInstruction : Obligations.StepRunsDecodedInstruction := by
  refine ⟨fun s i => step_of_decodeOpcode, fun s c rest hrun hdec hcb => ?_, fun s c rest hrun hdec hcb => ?_⟩
  · exact step_of_decodeOpcode (s := fetch s) hrun (decodeOpcode_false_of_decodes (decodes_of_decode hdec) hcb)
  · obtain ⟨hprefix, hop2⟩ := decodeOpcode_true_of_decodes (decodes_of_decode hdec) hcb
    obtain ⟨t, hstep, htrun, hregs, hctx⟩ := step_of_prefixCb_zero (s := fetch s) hrun rfl hprefix rfl
    have hlat : t.ctx.lat8 = busRead s (s.regs.pc + 1) := by
      rw [hctx]; exact BusSame.busRead ⟨rfl, rfl, rfl, rfl, rfl⟩ _
    refine ⟨t, hstep, htrun, ?_, ?_⟩
    · rw [hregs, fetch_regs, BitVec.add_assoc]; rfl
    · rw [step_of_prefixCb_one htrun (by rw [hctx]; rfl) (by rw [hctx]; exact hprefix) (by rw [hctx]),
        opcode_of_decodeOpcode hop2, ← hlat]
      exact step_of_decodeOpcode htrun (by rw [← hlat] at hop2; exact hop2)

/-! ## Operands (rules R100, R101) -/

theorem highPage_eq (off : Byte) : highPage off = 0xFF00#16 ||| off.zeroExtend 16 := rfl

/-- Settles O20: the addresses are pairs, and the high page. -/
theorem indirectAddresses : Obligations.IndirectAddresses :=
  fun _ => ⟨toNat_joinBytes .., toNat_joinBytes .., toNat_joinBytes .., rfl, rfl, highPage_eq _⟩

/-- Every listing with a 16-bit immediate begins with its two reads. -/
theorem execForm_of_immKind_word {f : Form} (hf : f.immKind = .word) (s : State) :
    (s.ctx.mstep = 0 → execForm f s = endCycle (readImm16Lo s)) ∧ (s.ctx.mstep = 1 → execForm f s = endCycle (readImm16Hi s)) := by
  cases f
  case ldAMA16 | ldMA16Sp | ldMA16A | ldRrD16 | call =>
    constructor <;> intro h <;> simp only [execForm, ldADir16, ldDir16Sp, ldDir16A, ldPairImm16, callDir, h]
  all_goals cases hf

/-- Settles O25: the two reads written out. -/
theorem wordImmediateReadLowByteFirst : Obligations.WordImmediateReadLowByteFirst := by
  intro i s hi
  obtain ⟨low, high⟩ := execForm_of_immKind_word hi s
  refine ⟨fun h0 => ?_, fun h1 => ?_⟩
  · rw [exec_eq_execForm, low h0, endCycle, State.advance, readImm16Lo, setPc_ctx, setLat16Lo_ctx, h0]; rfl
  · rw [exec_eq_execForm, high h1, endCycle, State.advance, readImm16Hi, setPc_ctx, setLat16Hi_ctx, h1]; rfl

/-! ## The ticks of an instruction (rules R93, R94, R107, R110) -/

/-- The cost of an instruction counted from its own cycle 0, without the prefix's cycle. -/
def ownTicks (f : Form) (flags : Byte) : Nat := cost (branches f flags) f - (if f.isCb then 1 else 0)

/-- The table against the listings: every line takes a tick, but JR cc not taken has two. -/
theorem ownTicks_eq {f : Form} (hf : f ≠ .prefixCb) (flags : Byte) :
    ownTicks f flags = if branches f flags then lines f else 2 := by
  cases f
  case prefixCb => contradiction
  all_goals rfl

theorem cost_of_isCb {f : Form} (hcb : f.isCb = true) (flags : Byte) : cost true f = ownTicks f flags + 1 := by
  cases f
  case rlR | rlMHl | bitR | bitMHl => rfl
  all_goals cases hcb

theorem ownTicks_pos {f : Form} (hf : f ≠ .prefixCb) (flags : Byte) : 0 < ownTicks f flags := by
  rw [ownTicks_eq hf]
  split
  · exact lines_pos f
  · decide

/-- The cycle of the last tick fetches, and each before it only advances: the lines of each listing one by one, JR cc split on its
condition first. -/
theorem execForm_ends (f : Form) (s : State) (hf : f ≠ .prefixCb) (h : s.ctx.mstep < ownTicks f s.regs.f) :
    ∃ x, execForm f s = if s.ctx.mstep + 1 < ownTicks f s.regs.f then endCycle x else complete x := by
  rw [ownTicks_eq hf] at h ⊢
  cases f
  case prefixCb => contradiction
  all_goals
    simp only [execForm, ldRegReg, ldRegInd, ldIndReg, ldRegImm8, ldIndImm8, ldADir16, ldDir8A, ldADir8, ldDir16A,
      ldDir16Sp, ldPairImm16, ldSpHl, incReg, decReg, incInd, decInd, incPair, decPair, cpReg, cpInd, cpImm8,
      compareWith, rlReg, rlInd, bitReg, bitInd, jumpRel, jumpRelIf, pushPair, popPair, callDir, returnPop,
      returnPopEnable, setIme]
    simp only [branches, lines, if_true] at h ⊢
  case' jrCc cc => by_cases taken : condHolds cc s.regs.f <;> simp only [taken, if_true, if_false, Bool.false_eq_true] at h ⊢
  all_goals interval_cases hm : s.ctx.mstep
  all_goals exact ⟨_, rfl⟩

/-- `InFlight i s k t`: in `t` the instruction `i`, at its cycle 0 in `s`, is at line `k` of its listing; a JR cc still branches as
`s` says. -/
structure InFlight (i : Instr) (s : State) (k : Nat) (t : State) : Prop where
  phase : t.phase = .run
  mstep : t.ctx.mstep = k
  opcode : t.ctx.opcode = s.ctx.opcode
  cb : t.ctx.cb = s.ctx.cb
  taken : branches i.form t.regs.f = branches i.form s.regs.f

/-- No cycle of JR cc writes F, so whether it branches is settled at its start. -/
theorem branches_exec {i : Instr} {s t : State} (h : exec i s = .next t) :
    branches i.form t.regs.f = branches i.form s.regs.f := by
  have frame := exec_frame h
  cases hi : i.form with
  | jrCc cc =>
    rw [hi] at frame
    have hf : t.regs.f = s.regs.f := by simpa [State.valueOf] using congrArg (BitVec.setWidth 8) (frame.kept .f rfl)
    rw [hf]
  | _ => rfl

section
variable {i : Instr} {s t : State} {k : Nat} (hi : i.form ≠ .prefixCb) (hdec : decodeOpcode s.ctx.cb s.ctx.opcode = some i)
  (ht : InFlight i s k t)

include hdec ht in
theorem InFlight.step_eq : step t = asTick (exec i t) :=
  step_of_decodeOpcode ht.phase (by rw [ht.cb, ht.opcode, hdec])

include hi ht in
theorem InFlight.exec_eq (hk : k < ownTicks i.form s.regs.f) :
    ∃ x, exec i t = if k + 1 < ownTicks i.form s.regs.f then endCycle x else complete x := by
  have hticks : ownTicks i.form t.regs.f = ownTicks i.form s.regs.f := by simp only [ownTicks, ht.taken]
  have ends := execForm_ends i.form t hi (by rwa [ht.mstep, hticks])
  rwa [ht.mstep, hticks, ← exec_eq_execForm] at ends

include hi hdec ht

/-- A tick before the last leaves the instruction in flight, at the next line. -/
theorem InFlight.step_succ (hk : k + 1 < ownTicks i.form s.regs.f) : ∃ u, step t = .next u ∧ InFlight i s (k + 1) u := by
  obtain ⟨x, hx⟩ := ht.exec_eq hi (by omega)
  rw [if_pos hk, endCycle] at hx
  refine ⟨restOfTick x.advance, by rw [ht.step_eq hdec, hx]; rfl, ?_⟩
  have taken : branches i.form x.advance.regs.f = branches i.form s.regs.f := (branches_exec hx).trans ht.taken
  obtain ⟨y, body, ⟨hadvance, -⟩ | hfetch⟩ := exec_next_cases hi hx
  · rw [hadvance] at taken ⊢
    exact ⟨by rw [restOfTick_phase, advance_phase, body.phase, ht.phase],
      by rw [restOfTick_ctx, advance_ctx, body.mstep, ht.mstep],
      by rw [restOfTick_ctx, advance_ctx, body.opcode, ht.opcode],
      by rw [restOfTick_ctx, advance_ctx, body.cb, ht.cb],
      by rw [restOfTick_regs, taken]⟩
  · have hmstep := congrArg (·.ctx.mstep) hfetch
    exact absurd hmstep (Nat.succ_ne_zero _)

/-- The last tick ends in the trailing Fetch. -/
theorem InFlight.step_last (hk : k + 1 = ownTicks i.form s.regs.f) : ∃ x, step t = .next (restOfTick (fetch x)) := by
  obtain ⟨x, hx⟩ := ht.exec_eq hi (by omega)
  rw [if_neg (by omega)] at hx
  exact ⟨x, by rw [ht.step_eq hdec, hx]; rfl⟩

end

theorem steps_succ_of_steps {n : Nat} {s t : State} (h : steps n s = .next t) : steps (n + 1) s = step t := by
  induction n generalizing s with
  | zero =>
    cases h
    simp only [steps]
    cases step t <;> rfl
  | succ n ih =>
    obtain ⟨u, hstep, hsteps⟩ := steps_succ_eq_next h
    rw [steps_succ_of_step _ hstep, ih hsteps]

theorem steps_eq_of_step_eq {n : Nat} {s t : State} (hn : 0 < n) (h : step s = step t) : steps n s = steps n t := by
  cases n with
  | zero => contradiction
  | succ n => simp only [steps, h]

section
variable {i : Instr} {s : State} (hi : i.form ≠ .prefixCb) (hrun : s.phase = .run)
  (hdec : decodeOpcode s.ctx.cb s.ctx.opcode = some i) (h0 : s.ctx.mstep = 0)
include hi hrun hdec h0

theorem steps_inFlight {k : Nat} (hk : k < ownTicks i.form s.regs.f) : ∃ t, steps k s = .next t ∧ InFlight i s k t := by
  induction k with
  | zero => exact ⟨s, rfl, hrun, h0, rfl, rfl, rfl⟩
  | succ k ih =>
    obtain ⟨t, hsteps, ht⟩ := ih (by omega)
    rw [steps_succ_of_steps hsteps]
    exact ht.step_succ hi hdec hk

theorem steps_ownTicks : ∃ x, steps (ownTicks i.form s.regs.f) s = .next (restOfTick (fetch x)) := by
  obtain ⟨k, hk⟩ : ∃ k, ownTicks i.form s.regs.f = k + 1 := Nat.exists_eq_succ_of_ne_zero (ownTicks_pos hi _).ne'
  obtain ⟨t, hsteps, ht⟩ := steps_inFlight hi hrun hdec h0 (k := k) (by omega)
  rw [hk, steps_succ_of_steps hsteps]
  exact ht.step_last hi hdec hk.symm

end

/-- After the prefix's first tick, the ticks are those of the second-table instruction from its own cycle 0. -/
theorem steps_of_prefixCb {j : Instr} {s : State} (hrun : s.phase = .run) (hcb : s.ctx.cb = false) (hop : s.ctx.opcode = 0xCB)
    (h0 : s.ctx.mstep = 0) (hop2 : decodeOpcode true (busRead s s.regs.pc) = some j) :
    ∃ x, steps (cost true j.form) s = .next (restOfTick (fetch x)) := by
  have hjcb := isCb_of_decodeOpcode_true hop2
  have hj := form_ne_prefixCb_of_isCb hjcb
  obtain ⟨t, hstep, htrun, -, hctx⟩ := step_of_prefixCb_zero hrun hcb hop h0
  have hredispatch : step t = step (installSecond t) :=
    step_of_prefixCb_one htrun (by rw [hctx, hcb]) (by rw [hctx, hop]) (by rw [hctx])
  have hsteps : steps (cost true j.form) s = steps (ownTicks j.form t.regs.f) (installSecond t) := by
    rw [cost_of_isCb hjcb t.regs.f, steps_succ_of_step _ hstep, steps_eq_of_step_eq (ownTicks_pos hj _) hredispatch]
  rw [hsteps]
  exact steps_ownTicks (s := installSecond t) hj htrun (by rw [← hop2, installSecond, hctx]) rfl

/-- Settles O12: by induction on the ticks the instruction stays in flight until the one that fetches. -/
theorem instructionsTakeTheirCost : Obligations.InstructionsTakeTheirCost := by
  refine ⟨fun i s hi hrun hdec h0 => ⟨fun k hk => ?_, steps_ownTicks hi hrun hdec h0⟩, fun j s => steps_of_prefixCb⟩
  obtain ⟨t, hsteps, ht⟩ := steps_inFlight hi hrun hdec h0 hk
  exact ⟨t, hsteps, ht.phase, ht.mstep, ht.opcode, ht.cb⟩

end Sys2Proof.Machine
end

section
/-!
PROOFS. The loads (41_ld.md), cycle by cycle: each line of a listing, with the end of its cycle written out.
-/

namespace Sys2Proof.Machine

/-! ## The cycles of the operand kinds, with their end written out (rules R94, R99 to R103) -/

/-- The update of an IND operand touches the registers alone. -/
theorem indUpdate_eq (s : State) (k : Ind) : indUpdate s k = { s with regs := regsAfter k s.regs } := by cases k <;> rfl

section
variable {s : State} {n : Nat} (h : s.ctx.mstep = n)
include h

theorem endCycle_readImm8 : endCycle (readImm8 s) = .next { s with
    ctx := { s.ctx with lat8 := busRead s s.regs.pc, mstep := n + 1 }
    regs := { s.regs with pc := s.regs.pc + 1 } } := by
  rw [← h]; rfl

theorem endCycle_setLat8 (v : Byte) :
    endCycle (s.setLat8 v) = .next { s with ctx := { s.ctx with lat8 := v, mstep := n + 1 } } := by
  rw [← h]; rfl

theorem endCycle_readInd (k : Ind) : endCycle (readInd k s) = .next { s with
    ctx := { s.ctx with lat8 := busRead s (indAddr s k), mstep := n + 1 }
    regs := regsAfter k s.regs } := by
  rw [readInd, indUpdate_eq, ← h]; rfl

theorem endCycle_busWrite (a : Word) (v : Byte) :
    endCycle (busWrite s a v) = .next { busWrite s a v with ctx := { s.ctx with mstep := n + 1 } } := by
  rw [endCycle, State.advance, busWrite_ctx, h]

theorem endCycle_writeInd (k : Ind) (v : Byte) : endCycle (writeInd k v s) = .next { busWrite s (indAddr s k) v with
    ctx := { s.ctx with mstep := n + 1 }
    regs := regsAfter k s.regs } := by
  rw [writeInd, indUpdate_eq, endCycle, State.advance, busWrite_regs, busWrite_ctx, h]

end

/-! ## Register to register (rules R121, R142) -/

/-- Settles O19: both listings have one line. -/
theorem registerLoads : Obligations.RegisterLoads := by
  refine ⟨fun i dst src s hi h0 => ?_, fun s h0 => ?_⟩
  · simp only [exec_eq_execForm, hi, execForm, ldRegReg, h0]
    rfl
  · simp only [exec_eq_execForm, Instr.form, execForm, ldSpHl, h0]
    rfl

/-! ## Through an IND operand (rules R122, R123, R126 to R129, R133 to R138) -/

theorem execForm_of_indLoad {f : Form} {dst : Reg8} {k : Ind} (h : indLoad f = some (dst, k)) (s : State) :
    execForm f s = ldRegInd dst k s := by
  cases f with
  | ldRMHl | ldAMBc | ldAMDe | ldAMC | ldAMHlInc | ldAMHlDec => cases h; rfl
  | _ => cases h

theorem execForm_of_indStore {f : Form} {src : Reg8} {k : Ind} (h : indStore f = some (k, src)) (s : State) :
    execForm f s = ldIndReg k src s := by
  cases f with
  | ldMHlR | ldMBcA | ldMDeA | ldMCA | ldMHlIncA | ldMHlDecA => cases h; rfl
  | _ => cases h

/-- Settles O21: all these forms share one listing. -/
theorem indirectLoads : Obligations.IndirectLoads := by
  intro i dst k s hi
  rw [exec_eq_execForm, execForm_of_indLoad hi]
  refine ⟨fun h0 => ?_, fun h1 => ?_⟩
  · simp only [ldRegInd, h0]
    exact endCycle_readInd h0 k
  · simp only [ldRegInd, h1]
    rfl

/-- Settles O22: all these forms share one listing. -/
theorem indirectStores : Obligations.IndirectStores := by
  intro i src k s hi
  rw [exec_eq_execForm, execForm_of_indStore hi]
  refine ⟨fun h0 => ?_, fun h1 => ?_⟩
  · simp only [ldIndReg, h0]
    exact endCycle_writeInd h0 k _
  · simp only [ldIndReg, h1]
    rfl

/-! ## With a byte operand (rules R124, R125, R131, R132) -/

/-- Settles O23: the operand's cycle, then the register with the Fetch, or the store through HL before it. -/
theorem byteImmediateLoads : Obligations.ByteImmediateLoads := by
  refine ⟨fun i dst s hi => ⟨fun h0 => ?_, fun h1 => ?_⟩, fun s => ⟨fun h0 => ?_, fun h1 => ?_, fun h2 => ?_⟩⟩
  · simp only [exec_eq_execForm, hi, execForm, ldRegImm8, h0]
    exact endCycle_readImm8 h0
  · simp only [exec_eq_execForm, hi, execForm, ldRegImm8, h1]
    rfl
  · simp only [exec_eq_execForm, Instr.form, execForm, ldIndImm8, h0]
    exact endCycle_readImm8 h0
  · simp only [exec_eq_execForm, Instr.form, execForm, ldIndImm8, h1]
    exact endCycle_busWrite h1 _ _
  · simp only [exec_eq_execForm, Instr.form, execForm, ldIndImm8, h2]
    rfl

/-- Settles O24: the operand's cycle is common; after it the store and the load part. -/
theorem highPageLoads : Obligations.HighPageLoads := by
  refine fun i s hi => ⟨fun h0 => ?_, fun h1 store => ?_, fun h1 load => ?_, fun h2 store => ?_, fun h2 load => ?_⟩
  · obtain rfl | rfl := hi
    · simp only [exec_eq_execForm, Instr.form, execForm, ldDir8A, h0]
      exact endCycle_readImm8 h0
    · simp only [exec_eq_execForm, Instr.form, execForm, ldADir8, h0]
      exact endCycle_readImm8 h0
  · simp only [store, exec_eq_execForm, Instr.form, execForm, ldDir8A, h1, dir8Addr, highPage_eq]
    exact endCycle_busWrite h1 _ _
  · simp only [load, exec_eq_execForm, Instr.form, execForm, ldADir8, h1, dir8Addr, highPage_eq]
    exact endCycle_setLat8 h1 _
  · simp only [store, exec_eq_execForm, Instr.form, execForm, ldDir8A, h2]
    rfl
  · simp only [load, exec_eq_execForm, Instr.form, execForm, ldADir8, h2]
    rfl

/-! ## With a 16-bit operand (rules R130, R139, R140, R141) -/

/-- Settles O26: the lines that follow the two that read the operand. -/
theorem absoluteAndPairLoads : Obligations.AbsoluteAndPairLoads := by
  refine fun s => ⟨fun h2 => ⟨?_, ?_, ?_, fun i p hi => ?_⟩, fun h3 => ⟨?_, ?_, ?_⟩, fun h4 => ?_⟩
  · simp only [exec_eq_execForm, Instr.form, execForm, ldADir16, h2]
    exact endCycle_setLat8 h2 _
  · simp only [exec_eq_execForm, Instr.form, execForm, ldDir16A, h2]
    exact endCycle_busWrite h2 _ _
  · simp only [exec_eq_execForm, Instr.form, execForm, ldDir16Sp, h2]
    exact endCycle_busWrite h2 _ _
  · simp only [exec_eq_execForm, hi, execForm, ldPairImm16, h2]
    rfl
  · simp only [exec_eq_execForm, Instr.form, execForm, ldADir16, h3]
    rfl
  · simp only [exec_eq_execForm, Instr.form, execForm, ldDir16A, h3]
    rfl
  · simp only [exec_eq_execForm, Instr.form, execForm, ldDir16Sp, h3]
    exact endCycle_busWrite h3 _ _
  · simp only [exec_eq_execForm, Instr.form, execForm, ldDir16Sp, h4]
    rfl

end Sys2Proof.Machine
end

section
/-!
PROOFS. INC and DEC (42_inc_dec.md): the flags as functions of the operand, then each line of the listings.
-/

namespace Sys2Proof.Machine

/-! ## The flags (rules R150, R152) -/

theorem incFlags_z (v f : Byte) : getFlag (incFlags v f) .z = decide (v = 0xFF) := by
  have wraps : ∀ v : Byte, (v + 1 == 0#8) = decide (v = 0xFF) := by decide
  simpa [incFlags] using wraps v

theorem incFlags_n (v f : Byte) : getFlag (incFlags v f) .n = false := by simp [incFlags]

theorem incFlags_h (v f : Byte) : getFlag (incFlags v f) .h = decide (v.toNat % 16 = 15) := by
  have halfCarry : ∀ v : Byte, (lowNibble v == 0xF#4) = decide (v.toNat % 16 = 15) := by decide
  simpa [incFlags] using halfCarry v

theorem decFlags_z (v f : Byte) : getFlag (decFlags v f) .z = decide (v = 0x01) := by
  have reachesZero : ∀ v : Byte, (v - 1 == 0#8) = decide (v = 0x01) := by decide
  simpa [decFlags] using reachesZero v

theorem decFlags_n (v f : Byte) : getFlag (decFlags v f) .n = true := by simp [decFlags]

theorem decFlags_h (v f : Byte) : getFlag (decFlags v f) .h = decide (v.toNat % 16 = 0) := by
  have halfBorrow : ∀ v : Byte, (lowNibble v == 0x0#4) = decide (v.toNat % 16 = 0) := by decide
  simpa [decFlags] using halfBorrow v

/-! ## A register and F written in one cycle (rules R150, R152, R156) -/

/-- F is none of the 8-bit registers: the order of the two writes does not matter. -/
theorem setF_set8_eq (s : State) (r : Reg8) (v f : Byte) :
    (s.setF f).set8 r v = { s with regs := { s.regs.set8 r v with f := f } } := by
  cases r <;> rfl

theorem exec_of_incR {i : Instr} {r : Reg8} {s : State} (hi : i.form = .incR r) (h0 : s.ctx.mstep = 0) :
    exec i s = .next (fetch ((s.setF (incFlags (s.get8 r) s.regs.f)).set8 r (s.get8 r + 1))) := by
  simp only [exec_eq_execForm, hi, execForm, incReg, h0]
  rfl

theorem exec_of_decR {i : Instr} {r : Reg8} {s : State} (hi : i.form = .decR r) (h0 : s.ctx.mstep = 0) :
    exec i s = .next (fetch ((s.setF (decFlags (s.get8 r) s.regs.f)).set8 r (s.get8 r - 1))) := by
  simp only [exec_eq_execForm, hi, execForm, decReg, h0]
  rfl

theorem get8_fetch_set8 (s : State) (r : Reg8) (v : Byte) : (fetch (s.set8 r v)).get8 r = v := by
  cases r <;> rfl

/-- Two such cycles, the second writing the register's first value back. -/
theorem regs_set8_set8_back (s : State) (r : Reg8) (v f f' : Byte) :
    (fetch (((fetch ((s.setF f).set8 r v)).setF f').set8 r (s.get8 r))).regs =
      { s.regs with pc := s.regs.pc + 1 + 1, f := f' } := by
  cases r <;> rfl

/-- Settles O30: the second instruction finds the first's result in the register, and each computation of F keeps C. -/
theorem incThenDecRestores : Obligations.IncThenDecRestores := by
  intro i j r s t u h0 h ht hu
  obtain ⟨hi, hj⟩ | ⟨hi, hj⟩ := h
  · obtain rfl := Host.Outcome.next.inj ((exec_of_incR hi h0).symm.trans ht)
    obtain rfl := Host.Outcome.next.inj ((exec_of_decR hj rfl).symm.trans hu)
    rw [get8_fetch_set8, BitVec.add_sub_cancel, regs_set8_set8_back]
    exact ⟨rfl, by simp⟩
  · obtain rfl := Host.Outcome.next.inj ((exec_of_decR hi h0).symm.trans ht)
    obtain rfl := Host.Outcome.next.inj ((exec_of_incR hj rfl).symm.trans hu)
    rw [get8_fetch_set8, BitVec.sub_add_cancel, regs_set8_set8_back]
    exact ⟨rfl, by simp⟩

/-- Settles O27: F is what the listing computes. -/
theorem incDecRegister : Obligations.IncDecRegister := by
  refine fun i r s h0 => ⟨fun hi => ⟨incFlags (s.get8 r) s.regs.f, ?_, incFlags_z .., incFlags_n .., incFlags_h ..,
      incFlags_c .., lowNibble_incFlags ..⟩,
    fun hi => ⟨decFlags (s.get8 r) s.regs.f, ?_, decFlags_z .., decFlags_n .., decFlags_h .., decFlags_c ..,
      lowNibble_decFlags ..⟩⟩
  · rw [exec_of_incR hi h0, setF_set8_eq]
    rfl
  · rw [exec_of_decR hi h0, setF_set8_eq]
    rfl

/-! ## Through HL, and pairs (rules R151, R153 to R155) -/

section
variable {s : State} {n : Nat} (h : s.ctx.mstep = n)
include h

theorem endCycle_writeInd_hl_setF (v f : Byte) :
    endCycle (writeInd .hl v (s.setF f)) = .next { busWrite s (indAddr s .hl) v with
      ctx := { s.ctx with mstep := n + 1 }
      regs := { s.regs with f := f } } := by
  rw [writeInd_hl_setF, endCycle, State.advance, busWrite_ctx, h]

theorem endCycle_set16 (p : Reg16) (v : Word) :
    endCycle (s.set16 p v) = .next { s with regs := s.regs.set16 p v, ctx := { s.ctx with mstep := n + 1 } } := by
  rw [← h]; rfl

end

/-- Settles O28: the read, the store with F, the Fetch; the two listings differ in the byte and the flags alone. -/
theorem incDecMemory : Obligations.IncDecMemory := by
  intro i s hi
  obtain rfl | rfl := hi
  · simp only [exec_eq_execForm, Instr.form, execForm, incInd]
    refine ⟨fun h0 => ?_, fun h1 => ⟨incFlags s.ctx.lat8 s.regs.f, ?_, incFlags_z .., incFlags_n .., incFlags_h ..,
      incFlags_c .., lowNibble_incFlags ..⟩, fun h2 => ?_⟩
    · simp only [h0]
      exact endCycle_readInd h0 .hl
    · simp only [h1]
      exact endCycle_writeInd_hl_setF h1 _ _
    · simp only [h2]
      rfl
  · simp only [exec_eq_execForm, Instr.form, execForm, decInd]
    refine ⟨fun h0 => ?_, fun h1 => ⟨decFlags s.ctx.lat8 s.regs.f, ?_, decFlags_z .., decFlags_n .., decFlags_h ..,
      decFlags_c .., lowNibble_decFlags ..⟩, fun h2 => ?_⟩
    · simp only [h0]
      exact endCycle_readInd h0 .hl
    · simp only [h1]
      exact endCycle_writeInd_hl_setF h1 _ _
    · simp only [h2]
      rfl

/-- Settles O29: the pair in the first cycle, the Fetch in the second. -/
theorem incDecPair : Obligations.IncDecPair := by
  refine fun i p s => ⟨fun hi h0 => ?_, fun hi h0 => ?_, fun hi h1 => ?_⟩
  · simp only [exec_eq_execForm, hi, execForm, incPair, h0]
    exact endCycle_set16 h0 p _
  · simp only [exec_eq_execForm, hi, execForm, decPair, h0]
    exact endCycle_set16 h0 p _
  · obtain hi | hi := hi
    · simp only [exec_eq_execForm, hi, execForm, incPair, h1]
      rfl
    · simp only [exec_eq_execForm, hi, execForm, decPair, h1]
      rfl

end Sys2Proof.Machine
end

section
/-!
PROOFS. CP (43_cp.md): each flag of `Compare` as a function of the two bytes, then each line of the listings.
-/

namespace Sys2Proof.Machine

/-! ## The flags (rule R163) -/

theorem toNat_lowNibble (v : Byte) : (lowNibble v).toNat = v.toNat % 16 := by
  rw [lowNibble, BitVec.extractLsb'_toNat, Nat.shiftRight_zero]

theorem cpFlags_z (a v f : Byte) : getFlag (cpFlags a v f) .z = decide (a.toNat = v.toNat) := by
  simp [cpFlags, beq_eq_decide, BitVec.toNat_inj]

theorem cpFlags_n (a v f : Byte) : getFlag (cpFlags a v f) .n = true := by simp [cpFlags]

theorem cpFlags_h (a v f : Byte) : getFlag (cpFlags a v f) .h = decide (a.toNat % 16 < v.toNat % 16) := by
  simp [cpFlags, BitVec.ult, toNat_lowNibble]

theorem cpFlags_c (a v f : Byte) : getFlag (cpFlags a v f) .c = decide (a.toNat < v.toNat) := by
  simp [cpFlags, BitVec.ult]

/-- Settles O16: one lemma for each flag, and one for the low nibble. -/
theorem compareFlags : Obligations.CompareFlags :=
  fun _ _ _ => ⟨cpFlags_z .., cpFlags_n .., cpFlags_h .., cpFlags_c .., lowNibble_cpFlags ..⟩

/-! ## The cycles (rules R160 to R162) -/

/-- `Compare` then Fetch, the last line of every CP. -/
theorem complete_compareWith (v : Byte) (s : State) : complete (compareWith v s) =
    .next (fetch { s with regs := { s.regs with f := cpFlags s.regs.a v s.regs.f } }) := rfl

/-- Settles O31: a comparison is the write of F that the last line makes; before it, the operand's cycle sets the latch. -/
theorem compareChangesOnlyFlags : Obligations.CompareChangesOnlyFlags := by
  refine fun s => ⟨fun i r hi h0 => ?_, fun h0 => ⟨?_, ?_⟩, fun h1 i hi => ?_⟩
  · simp only [exec_eq_execForm, hi, execForm, cpReg, h0]
    exact complete_compareWith ..
  · simp only [exec_eq_execForm, Instr.form, execForm, cpInd, h0]
    exact endCycle_readInd h0 .hl
  · simp only [exec_eq_execForm, Instr.form, execForm, cpImm8, h0]
    exact endCycle_readImm8 h0
  · obtain rfl | rfl := hi
    · simp only [exec_eq_execForm, Instr.form, execForm, cpInd, h1]
      exact complete_compareWith ..
    · simp only [exec_eq_execForm, Instr.form, execForm, cpImm8, h1]
      exact complete_compareWith ..

end Sys2Proof.Machine
end

section
/-!
PROOFS. RL and BIT (44_rl_bit.md): the rotation as an equation of nine bits, each flag as a function of the operand, then each
line of the listings.
-/

namespace Sys2Proof.Machine

/-! ## The flags (rules R167, R169) -/

theorem rotLFlags_z (v f : Byte) : getFlag (rotLFlags v f) .z = decide ((rotL v f).toNat = 0) := by
  simp [rotLFlags, beq_eq_decide, ← BitVec.toNat_inj]

theorem rotLFlags_n (v f : Byte) : getFlag (rotLFlags v f) .n = false := by simp [rotLFlags]

theorem rotLFlags_h (v f : Byte) : getFlag (rotLFlags v f) .h = false := by simp [rotLFlags]

/-- The new Carry above the result is the operand with the old Carry below it. -/
theorem cons_rotL (v f : Byte) :
    BitVec.cons (getFlag (rotLFlags v f) .c) (rotL v f) = BitVec.concat v (getFlag f .c) := by
  ext k hk
  cases k with
  | zero => simp [BitVec.getElem_cons, rotL]
  | succ k =>
    simp only [BitVec.getElem_cons, rotLFlags, rotL]
    by_cases top : k = 7 <;> simp [top]

/-- The nine-bit equation, read as numbers. -/
theorem toNat_rotL (v f : Byte) :
    (getFlag (rotLFlags v f) .c).toNat * 256 + (rotL v f).toNat = 2 * v.toNat + (getFlag f .c).toNat := by
  have nineBits := congrArg BitVec.toNat (cons_rotL v f)
  rwa [BitVec.toNat_cons', BitVec.toNat_concat, Nat.shiftLeft_eq, Nat.mul_comm v.toNat] at nineBits

/-- Settles O17: the rotation, one lemma for each other flag, and one for the low nibble. -/
theorem rotateLeftThroughCarry : Obligations.RotateLeftThroughCarry :=
  fun _ _ => ⟨toNat_rotL .., rotLFlags_z .., rotLFlags_n .., rotLFlags_h .., lowNibble_rotLFlags ..⟩

/-- Z is the complement of the tested bit. -/
theorem bitFlags_z (b : Fin 8) (v f : Byte) :
    getFlag (bitFlags b v f) .z = decide (v.toNat / 2 ^ b.val % 2 = 0) := by
  have bit : v.getLsbD b = !decide (v.toNat / 2 ^ b.val % 2 = 0) := by
    simp only [BitVec.getLsbD, Nat.testBit_eq_decide_div_mod_eq, ← decide_not, Nat.mod_two_not_eq_zero]
  simp only [bitFlags, getFlag_setFlag, bit, Bool.not_not, reduceCtorEq, ↓reduceIte]

theorem bitFlags_n (b : Fin 8) (v f : Byte) : getFlag (bitFlags b v f) .n = false := by simp [bitFlags]

theorem bitFlags_h (b : Fin 8) (v f : Byte) : getFlag (bitFlags b v f) .h = true := by simp [bitFlags]

/-! ## The cycles (rules R165 to R168) -/

/-- Settles O32: the register and F in one line; through HL, the read, the store with F, the Fetch. -/
theorem rotateInstructions : Obligations.RotateInstructions := by
  refine fun s => ⟨fun i r hi h0 => ?_, fun h0 => ?_, fun h1 => ?_, fun h2 => ?_⟩
  · simp only [exec_eq_execForm, hi, execForm, rlReg, h0, setF_set8_eq]
    rfl
  · simp only [exec_eq_execForm, Instr.form, execForm, rlInd, h0]
    exact endCycle_readInd h0 .hl
  · simp only [exec_eq_execForm, Instr.form, execForm, rlInd, h1]
    exact endCycle_writeInd_hl_setF h1 ..
  · simp only [exec_eq_execForm, Instr.form, execForm, rlInd, h2]
    rfl

/-- Settles O33: each listing ends with the write of F and the Fetch; before it, (HL) is read into the latch. -/
theorem bitTests : Obligations.BitTests := by
  refine fun i b s => ⟨fun r hi h0 => ⟨bitFlags b (s.get8 r) s.regs.f, ?_, bitFlags_z .., bitFlags_n .., bitFlags_h ..,
      bitFlags_c .., lowNibble_bitFlags ..⟩,
    fun hi h0 => ?_,
    fun hi h1 => ⟨bitFlags b s.ctx.lat8 s.regs.f, ?_, bitFlags_z .., bitFlags_n .., bitFlags_h .., bitFlags_c ..,
      lowNibble_bitFlags ..⟩⟩
  · simp only [exec_eq_execForm, hi, execForm, bitReg, h0]
    rfl
  · simp only [exec_eq_execForm, hi, execForm, bitInd, h0]
    exact endCycle_readInd h0 .hl
  · simp only [exec_eq_execForm, hi, execForm, bitInd, h1]
    rfl

end Sys2Proof.Machine
end

section
/-!
PROOFS. JR and JR cc (45_jr.md): the conditions as bits of F, then the one listing the jumps share, cycle by cycle.
-/

namespace Sys2Proof.Machine

/-! ## The conditions (rule R177) -/

theorem getFlag_eq_decide (f : Byte) (x : Flag) : getFlag f x = decide (f.toNat / 2 ^ x.bit % 2 = 1) :=
  Nat.testBit_eq_decide_div_mod_eq

theorem not_getFlag_eq_decide (f : Byte) (x : Flag) : (!getFlag f x) = decide (f.toNat / 2 ^ x.bit % 2 = 0) := by
  simp only [getFlag_eq_decide, ← decide_not, Nat.mod_two_not_eq_one]

/-- Settles O18: Z is bit 7 of F, C is bit 4, and each is read as it is or negated. -/
theorem conditionsReadZeroAndCarry : Obligations.ConditionsReadZeroAndCarry :=
  fun _ => ⟨not_getFlag_eq_decide _ .z, getFlag_eq_decide _ .z, not_getFlag_eq_decide _ .c, getFlag_eq_decide _ .c⟩

/-! ## The cycles (rules R175, R176) -/

/-- A form that jumps by a displacement. -/
def IsRelativeJump (f : Form) : Prop := f = .jr ∨ ∃ cc, f = .jrCc cc

section
variable {f : Form} (hf : IsRelativeJump f) {s : State}
include hf

theorem execForm_jump_zero (h0 : s.ctx.mstep = 0) : execForm f s = endCycle (readImm8 s) := by
  obtain rfl | ⟨cc, rfl⟩ := hf
  · simp only [execForm, jumpRel, h0]
  · simp only [execForm, jumpRelIf, h0]

theorem execForm_jump_one (h1 : s.ctx.mstep = 1) :
    execForm f s = if branches f s.regs.f then endCycle (branchTaken s) else complete s := by
  obtain rfl | ⟨cc, rfl⟩ := hf
  · simp only [execForm, jumpRel, h1]
    rfl
  · simp only [execForm, jumpRelIf, h1]
    rfl

theorem execForm_jump_two (h2 : s.ctx.mstep = 2) : execForm f s = complete s := by
  obtain rfl | ⟨cc, rfl⟩ := hf
  · simp only [execForm, jumpRel, h2]
  · simp only [execForm, jumpRelIf, h2]

end

/-- Adding a sign-extended byte adds its signed value, modulo 2^16 (D8). -/
theorem add_sext16 (w : Word) (v : Byte) : w + sext16 v = BitVec.ofInt 16 (w.toNat + v.toInt) := by
  rw [BitVec.ofInt_add, BitVec.ofInt_natCast, BitVec.ofNat_toNat, BitVec.setWidth_eq, sext16, BitVec.signExtend]

theorem endCycle_branchTaken {s : State} {n : Nat} (h : s.ctx.mstep = n) : endCycle (branchTaken s) = .next { s with
    ctx := { s.ctx with mstep := n + 1 }
    regs := { s.regs with pc := BitVec.ofInt 16 (s.regs.pc.toNat + s.ctx.lat8.toInt) } } := by
  rw [branchTaken, add_sext16, ← h]; rfl

/-- Settles O34: the displacement's cycle, the branch or the Fetch by the condition, and the Fetch after a branch. -/
theorem relativeJumps : Obligations.RelativeJumps := by
  refine fun i s hi => ⟨fun h0 => ?_, fun h1 taken => ?_, fun h1 notTaken => ?_, fun h2 => ?_⟩ <;> rw [exec_eq_execForm]
  · rw [execForm_jump_zero hi h0, endCycle_readImm8 h0]
  · rw [execForm_jump_one hi h1, if_pos taken, endCycle_branchTaken h1]
  · rw [execForm_jump_one hi h1, if_neg (ne_true_of_eq_false notTaken), complete]
  · rw [execForm_jump_two hi h2, complete]

end Sys2Proof.Machine
end

section
/-!
PROOFS. PUSH, POP, RET and RETI (46_push_pop.md, 47_call_ret.md), cycle by cycle: each line of a listing, with the end of its cycle
written out.
-/

namespace Sys2Proof.Machine

/-! ## The cycles that move a byte, with their end written out (rule R183) -/

section
variable {s : State} {n : Nat} (h : s.ctx.mstep = n)
include h

theorem endCycle_pushByte (v : Byte) : endCycle (pushByte s v) = .next { busWrite s (s.regs.sp - 1) v with
    ctx := { s.ctx with mstep := n + 1 }
    regs := { s.regs with sp := s.regs.sp - 1 } } := by
  rw [pushByte_eq, endCycle, State.advance, busWrite_ctx, h]

theorem endCycle_popLow : endCycle (popLow s) = .next { s with
    ctx := { s.ctx with lat16 := joinBytes (hiByte s.ctx.lat16) (busRead s s.regs.sp), mstep := n + 1 }
    regs := { s.regs with sp := s.regs.sp + 1 } } := by
  rw [← h]; rfl

theorem endCycle_popHigh : endCycle (popHigh s) = .next { s with
    ctx := { s.ctx with lat16 := joinBytes (busRead s s.regs.sp) (loByte s.ctx.lat16), mstep := n + 1 }
    regs := { s.regs with sp := s.regs.sp + 1 } } := by
  rw [← h]; rfl

end

/-! ## PUSH (rules R180, R183) -/

theorem exec_of_pushRr {i : Instr} {p : Reg16} (hi : i.form = .pushRr p) (s : State) : exec i s = pushPair p s := by
  rw [exec_eq_execForm, hi, execForm]

/-- Settles O35: the listing's four lines, a push written out as the store below SP. -/
theorem pushCycles : Obligations.PushCycles := by
  intro i p s hi
  rw [exec_of_pushRr hi]
  refine ⟨fun h0 => ?_, fun h1 => ?_, fun h2 => ?_, fun h3 => ?_⟩
  · simp only [pushPair, h0, endCycle, State.advance]
  · simp only [pushPair, h1]
    exact endCycle_pushByte h1 _
  · simp only [pushPair, h2]
    exact endCycle_pushByte h2 _
  · simp only [pushPair, h3, complete]

/-! ## POP, RET and RETI (rules R181, R183, R186, R187) -/

/-- POP rr, RET and RETI begin with the same two reads. -/
theorem exec_of_pops {i : Instr} (hi : (∃ p, i.form = .popRr p) ∨ i = .ret ∨ i = .reti) (s : State) :
    (s.ctx.mstep = 0 → exec i s = endCycle (popLow s)) ∧ (s.ctx.mstep = 1 → exec i s = endCycle (popHigh s)) := by
  rw [exec_eq_execForm]
  obtain ⟨p, hp⟩ | rfl | rfl := hi
  · rw [hp]
    constructor <;> intro h <;> simp only [execForm, popPair, h]
  · constructor <;> intro h <;> simp only [Instr.form, execForm, returnPop, h]
  · constructor <;> intro h <;> simp only [Instr.form, execForm, returnPopEnable, h]

theorem exec_popRr_two {i : Instr} {p : Reg16} {s : State} (hi : i.form = .popRr p) (h2 : s.ctx.mstep = 2) :
    exec i s = complete (s.set16 p s.ctx.lat16) := by
  simp only [exec_eq_execForm, hi, execForm, popPair, h2]

/-- The cycle of RET and RETI that loads PC. -/
theorem exec_return_two {i : Instr} {s : State} (hi : i = .ret ∨ i = .reti) (h2 : s.ctx.mstep = 2) :
    exec i s = endCycle (s.setPc s.ctx.lat16) := by
  obtain rfl | rfl := hi
  · simp only [exec_eq_execForm, Instr.form, execForm, returnPop, h2]
  · simp only [exec_eq_execForm, Instr.form, execForm, returnPopEnable, h2]

/-- Settles O36: the two reads are common; after them POP writes the pair, and RET and RETI load PC before the Fetch. -/
theorem popAndReturnCycles : Obligations.PopAndReturnCycles := by
  refine fun i s => ⟨fun hi => ⟨fun h0 => ?_, fun h1 => ?_⟩, fun p hi h2 => ?_, fun hi h2 => ?_, fun hi h3 => ?_, fun hi h3 => ?_⟩
  · rw [(exec_of_pops hi s).1 h0]
    exact endCycle_popLow h0
  · rw [(exec_of_pops hi s).2 h1]
    exact endCycle_popHigh h1
  · exact exec_popRr_two hi h2
  · rw [exec_return_two hi h2, endCycle, State.advance, setPc_ctx, h2]
    rfl
  · simp only [hi, exec_eq_execForm, Instr.form, execForm, returnPop, h3, complete]
  · simp only [hi, exec_eq_execForm, Instr.form, execForm, returnPopEnable, h3]
    rfl

end Sys2Proof.Machine
end

section
/-!
PROOFS. PUSH then POP (46_push_pop.md rule R182): a word pushed is the word popped, whatever runs between the cycles, so long as it
leaves the CPU and the two bytes of the stack alone. CPU cycles alone and whole ticks are two cases of that.
-/

namespace Sys2Proof.Machine

/-! ## The places of the stack's bytes -/

theorem holdsByte_of_keepsByte {s : State} {a : Word} (hinv : s.MemoryInv) (h : s.keepsByte a) : s.holdsByte (s.target a) := by
  obtain ⟨⟨hvram, -⟩, ⟨hoam, -⟩, -, -, ⟨hwram, -⟩, ⟨hhram, -⟩, -, -⟩ := hinv
  unfold State.keepsByte at h
  generalize s.target a = t at h ⊢
  cases t with
  | wram => exact hwram
  | hram => exact hhram
  | vram => exact ⟨h, hvram⟩
  | oam => exact ⟨h, hoam⟩
  | _ => cases h

theorem keepsByte_of_inRam {s : State} {a : Word} (h : s.inRam a) : s.keepsByte a := by
  unfold State.inRam at h
  unfold State.keepsByte
  generalize s.target a = t at h ⊢
  cases t with
  | wram | hram => trivial
  | _ => cases h

/-- A store keeps the canonical form of the memories a stack can lie in. -/
theorem wf_busWrite (s : State) (w : Word) (v : Byte) :
    (s.dev.wram.wf → (busWrite s w v).dev.wram.wf) ∧ (s.dev.hram.wf → (busWrite s w v).dev.hram.wf) ∧
    (s.ppu.vram.wf → (busWrite s w v).ppu.vram.wf) ∧ (s.ppu.oam.wf → (busWrite s w v).ppu.oam.wf) := by
  unfold busWrite
  cases s.target w with
  | wram off => exact ⟨Memory.wf_write _ off v, id, id, id⟩
  | hram off => exact ⟨id, Memory.wf_write _ off v, id, id⟩
  | vram off =>
    rw [writeTarget]
    split
    · exact ⟨id, id, id, id⟩
    · exact ⟨id, id, Memory.wf_write _ off v, id⟩
  | oam off =>
    rw [writeTarget]
    split
    · exact ⟨id, id, id, id⟩
    · exact ⟨id, id, id, Memory.wf_write _ off v⟩
  | ppuReg r => cases r <;> exact ⟨id, id, id, id⟩
  | _ => exact ⟨id, id, id, id⟩

/-- A place that holds its byte does so after any store: no store locks a memory. -/
theorem holdsByte_busWrite {s : State} {t : Target} (w : Word) (v : Byte) (h : s.holdsByte t) : (busWrite s w v).holdsByte t := by
  obtain ⟨hwram, hhram, hvram, hoam⟩ := wf_busWrite s w v
  obtain ⟨hmode, -⟩ := busWrite_ppuOwned s w v
  cases t with
  | wram => exact hwram h
  | hram => exact hhram h
  | vram =>
    obtain ⟨unlocked, wf⟩ := h
    exact ⟨by rw [hmode, unlocked], hvram wf⟩
  | oam =>
    obtain ⟨unlocked, wf⟩ := h
    exact ⟨by rw [hmode, unlocked], hoam wf⟩
  | _ => cases h

/-- The offset a memory receives has the parity of the address: every mask of rule R45 keeps bit 0. -/
def Target.ParityOf (a : Word) : Target → Prop
  | .vram off | .wram off | .oam off | .hram off => off % 2 = a.toNat % 2
  | _ => True

theorem Target.ParityOf.ite {a : Word} {c : Prop} [Decidable c] {x y : Target} (hx : x.ParityOf a) (hy : y.ParityOf a) :
    (if c then x else y).ParityOf a := by
  split
  · exact hx
  · exact hy

theorem parityOf_ppuRegAt (a : Word) (n : Nat) : (ppuRegAt n).ParityOf a := by
  obtain ⟨r, h⟩ | h := ppuRegAt_cases n <;> rw [h] <;> trivial

theorem parityOf_target (s : State) (a : Word) : (s.target a).ParityOf a := by
  have masked {m : Nat} (hm : 2 ∣ m) : a.toNat % m % 2 = a.toNat % 2 := Nat.mod_mod_of_dvd _ hm
  unfold State.target decodeAddr
  refine .ite trivial <| .ite trivial <| .ite (masked (by decide)) <| .ite trivial <| .ite (masked (by decide)) <|
    .ite (.ite (masked (by decide)) trivial) <| .ite (masked (by decide)) <| .ite trivial <| .ite trivial <| .ite ?_ <|
    .ite trivial <| .ite (masked (by decide)) <| .ite trivial trivial
  generalize a.toNat - 0xFF40 = n
  exact parityOf_ppuRegAt a n

/-- The two bytes of a word on the stack are in two places. -/
theorem not_storeReaches_above {s : State} {a : Word} (h : s.holdsByte (s.target (a - 1))) : ¬ s.storeReaches (a - 1) a := by
  intro hreach
  have upper := parityOf_target s a
  have lower := parityOf_target s (a - 1)
  unfold State.storeReaches at hreach
  cases ht : s.target (a - 1) with
  | wram | hram | vram | oam =>
    simp only [ht] at hreach lower
    rw [hreach] at upper
    simp only [Target.ParityOf] at upper lower
    bv_omega
  | _ => rw [ht] at h; cases h

/-! ## Cycles with something between them -/

/-- `n` cycles of an instruction, each followed by `g`: CPU cycles alone when `g` does nothing, ticks when it is the rest of a tick. -/
def cyclesThen (g : State → State) (i : Instr) : Nat → State → Result
  | 0, s => .next s
  | n + 1, s =>
    match exec i s with
    | .next t => cyclesThen g i n (g t)
    | .fault r => .fault r
    | .refused r => .refused r

theorem cyclesThen_succ {g : State → State} {i : Instr} {s t : State} (n : Nat) (h : exec i s = .next t) :
    cyclesThen g i (n + 1) s = cyclesThen g i n (g t) := by
  simp only [cyclesThen, h]

theorem cycles_eq_cyclesThen (i : Instr) (n : Nat) (s : State) : cycles i n s = cyclesThen id i n s := by
  induction n generalizing s with
  | zero => rfl
  | succ n ih =>
    simp only [cycles, cyclesThen]
    cases exec i s with
    | next t => exact ih t
    | fault r | refused r => rfl

/-- The ticks of an instruction in flight are its cycles, each followed by the rest of the tick. -/
theorem InFlight.steps_eq {i : Instr} {s t : State} {k n : Nat} (hi : i.form ≠ .prefixCb)
    (hdec : decodeOpcode s.ctx.cb s.ctx.opcode = some i) (ht : InFlight i s k t) (hn : k + n ≤ ownTicks i.form s.regs.f) :
    steps n t = cyclesThen restOfTick i n t := by
  induction n generalizing k t with
  | zero => rfl
  | succ n ih =>
    have hstep := ht.step_eq hdec
    simp only [steps, cyclesThen, hstep]
    cases hexec : exec i t with
    | fault r | refused r => rfl
    | next u =>
      cases n with
      | zero => rfl
      | succ n =>
        obtain ⟨v, hv, inFlight⟩ := ht.step_succ hi hdec (by omega)
        rw [hstep, hexec] at hv
        cases hv
        exact ih inFlight (by omega)

theorem steps_eq_cyclesThen {i : Instr} {s : State} {n : Nat} (hi : i.form ≠ .prefixCb) (hrun : s.phase = .run)
    (hdec : decodeOpcode s.ctx.cb s.ctx.opcode = some i) (h0 : s.ctx.mstep = 0) (hn : n ≤ ownTicks i.form s.regs.f) :
    steps n s = cyclesThen restOfTick i n s :=
  InFlight.steps_eq hi hdec ⟨hrun, h0, rfl, rfl, rfl⟩ (by omega)

/-- What runs between the cycles leaves the CPU alone. -/
structure LeavesCpu (g : State → State) : Prop where
  regs : ∀ s, (g s).regs = s.regs
  ctx : ∀ s, (g s).ctx = s.ctx
  phase : ∀ s, (g s).phase = s.phase

/-- It leaves the byte at an address alone. -/
structure LeavesByte (g : State → State) (a : Word) : Prop where
  read : ∀ s, busRead (g s) a = busRead s a
  holds : ∀ s, s.holdsByte (s.target a) → (g s).holdsByte ((g s).target a)

theorem leavesCpu_restOfTick : LeavesCpu restOfTick := ⟨restOfTick_regs, restOfTick_ctx, restOfTick_phase⟩

/-- The PPU reaches neither working RAM nor high RAM, and the overlay covers neither (rules R5, R46). -/
theorem leavesByte_restOfTick {s : State} {a : Word} (h : s.inRam a) : LeavesByte restOfTick a := by
  have above : 0xFF < a.toNat := by
    unfold State.inRam at h
    cases ht : s.target a with
    | wram off =>
      obtain ⟨range, -⟩ := wram_range s a off ht
      omega
    | hram off =>
      obtain ⟨range, -⟩ := hram_range s a off ht
      omega
    | _ => rw [ht] at h; cases h
  have sameTarget (t : State) : t.target a = s.target a := target_of_above_overlay t s above
  have hdev (t : State) : (restOfTick t).dev = t.dev := by
    obtain ⟨-, -, -, -, -, -, -, hdev, -⟩ := restOfTickLeavesCpuStateAlone t
    exact hdev
  unfold State.inRam at h
  constructor <;> intro t
  · simp only [busRead, sameTarget]
    cases ht : s.target a with
    | wram | hram => simp only [readTarget, hdev]
    | _ => rw [ht] at h; cases h
  · simp only [sameTarget]
    cases ht : s.target a with
    | wram | hram => simp only [State.holdsByte, hdev, imp_self]
    | _ => rw [ht] at h; cases h

/-! ## A word pushed and a word popped -/

/-- The two cycles that push a word. -/
def pushWord (g : State → State) (w : Word) (s : State) : State :=
  g (pushByte (g (pushByte s (hiByte w)).advance) (loByte w)).advance

/-- The two cycles that pop a word into `lat16`. -/
def popWord (g : State → State) (s : State) : State := g (popHigh (g (popLow s).advance)).advance

@[simp] theorem pushByte_regs (s : State) (v : Byte) : (pushByte s v).regs = { s.regs with sp := s.regs.sp - 1 } := by
  rw [pushByte_eq]

@[simp] theorem pushByte_ctx (s : State) (v : Byte) : (pushByte s v).ctx = s.ctx := by simp [pushByte]

@[simp] theorem pushByte_phase (s : State) (v : Byte) : (pushByte s v).phase = s.phase := by simp [pushByte]

@[simp] theorem popLow_regs (s : State) : (popLow s).regs = { s.regs with sp := s.regs.sp + 1 } := rfl

@[simp] theorem popHigh_regs (s : State) : (popHigh s).regs = { s.regs with sp := s.regs.sp + 1 } := rfl

@[simp] theorem popLow_ctx (s : State) :
    (popLow s).ctx = { s.ctx with lat16 := joinBytes (hiByte s.ctx.lat16) (busRead s s.regs.sp) } := rfl

@[simp] theorem popHigh_ctx (s : State) :
    (popHigh s).ctx = { s.ctx with lat16 := joinBytes (busRead s s.regs.sp) (loByte s.ctx.lat16) } := rfl

/-- The registers and the engine are not on the bus. -/
theorem busRead_pushByte_advance (s : State) (v : Byte) (a : Word) :
    busRead (pushByte s v).advance a = busRead (busWrite s (s.regs.sp - 1) v) a := by
  rw [pushByte_eq]
  exact BusSame.busRead ⟨rfl, rfl, rfl, rfl, rfl⟩ a

theorem holdsByte_pushByte_advance {s : State} {a : Word} (v : Byte) (hsp : s.holdsByte (s.target (s.regs.sp - 1)))
    (h : s.holdsByte (s.target a)) : (pushByte s v).advance.holdsByte ((pushByte s v).advance.target a) := by
  rw [pushByte_eq]
  have notSwitch : s.target (s.regs.sp - 1) ≠ .bootSwitch := by
    intro e
    rw [e] at hsp
    exact hsp
  have kept := holdsByte_busWrite (s.regs.sp - 1) v h
  rwa [← target_busWrite v (absurd · notSwitch)] at kept

section
variable {g : State → State} (cpu : LeavesCpu g) (s : State)
include cpu

theorem pushWord_regs (w : Word) : (pushWord g w s).regs = { s.regs with sp := s.regs.sp - 2 } := by
  simp [pushWord, cpu.regs, BitVec.sub_sub]

theorem pushWord_ctx (w : Word) : (pushWord g w s).ctx = { s.ctx with mstep := s.ctx.mstep + 2 } := by
  simp [pushWord, cpu.ctx]

theorem pushWord_phase (w : Word) : (pushWord g w s).phase = s.phase := by simp [pushWord, cpu.phase]

theorem popWord_regs : (popWord g s).regs = { s.regs with sp := s.regs.sp + 2 } := by
  simp [popWord, cpu.regs, BitVec.add_assoc]

theorem popWord_ctx (h : LeavesByte g (s.regs.sp + 1)) : (popWord g s).ctx = { s.ctx with
    lat16 := joinBytes (busRead s (s.regs.sp + 1)) (busRead s s.regs.sp)
    mstep := s.ctx.mstep + 2 } := by
  have high : busRead (g (popLow s).advance) (s.regs.sp + 1) = busRead s (s.regs.sp + 1) :=
    (h.read _).trans (BusSame.busRead ⟨rfl, rfl, rfl, rfl, rfl⟩ _)
  rw [popWord, cpu.ctx, advance_ctx, popHigh_ctx, cpu.regs, cpu.ctx, advance_regs, popLow_regs, high]
  simp

end

/-- The two bytes below SP hold what is stored in them, and `g` leaves them alone. -/
structure StackReady (g : State → State) (s : State) : Prop where
  upper : LeavesByte g (s.regs.sp - 1)
  lower : LeavesByte g (s.regs.sp - 2)
  upperHolds : s.holdsByte (s.target (s.regs.sp - 1))
  lowerHolds : s.holdsByte (s.target (s.regs.sp - 2))

/-- A cycle that neither stores nor moves SP, and `g` after it, keep the stack ready. -/
theorem StackReady.cycle {g : State → State} {s x : State} (h : StackReady g s) (cpu : LeavesCpu g) (same : BusSame s x)
    (hsp : x.regs.sp = s.regs.sp) : StackReady g (g x) := by
  have sp : (g x).regs.sp = s.regs.sp := by rw [cpu.regs, hsp]
  have holds {a : Word} (ha : s.holdsByte (s.target a)) : x.holdsByte (x.target a) := by
    unfold State.holdsByte State.target
    rw [same.dev, same.ppu, same.bootActive]
    exact ha
  constructor <;> rw [sp]
  · exact h.upper
  · exact h.lower
  · exact h.upper.holds x (holds h.upperHolds)
  · exact h.lower.holds x (holds h.lowerHolds)

/-- Both bytes of a word pushed stand on the stack: the low byte's store does not reach the high byte. -/
theorem busRead_pushWord {g : State → State} (cpu : LeavesCpu g) {s : State} (ready : StackReady g s) (w : Word) :
    busRead (pushWord g w s) (s.regs.sp - 1) = hiByte w ∧ busRead (pushWord g w s) (s.regs.sp - 2) = loByte w := by
  generalize ht : g (pushByte s (hiByte w)).advance = t
  have sp : t.regs.sp - 1 = s.regs.sp - 2 := by rw [← ht, cpu.regs, advance_regs, pushByte_regs, BitVec.sub_sub]; rfl
  have high : busRead t (s.regs.sp - 1) = hiByte w := by
    rw [← ht, ready.upper.read, busRead_pushByte_advance, busRead_busWrite_of_holdsByte _ ready.upperHolds rfl rfl]
  have holds : t.holdsByte (t.target (s.regs.sp - 2)) :=
    ht ▸ ready.lower.holds _ (holdsByte_pushByte_advance _ ready.upperHolds ready.lowerHolds)
  have notReached : ¬ t.storeReaches (s.regs.sp - 2) (s.regs.sp - 1) := by
    have below : s.regs.sp - 2 = s.regs.sp - 1 - 1 := by bv_omega
    rw [below] at holds ⊢
    exact not_storeReaches_above holds
  constructor
  · rw [pushWord, ht, ready.upper.read, busRead_pushByte_advance, sp, busRead_busWrite_of_not_reached _ notReached, high]
  · rw [pushWord, ht, ready.lower.read, busRead_pushByte_advance, sp, busRead_busWrite_of_holdsByte _ holds rfl rfl]

/-! ## PUSH then POP -/

theorem ne_sp_of_pushRr {i : Instr} {p : Reg16} (hi : i.form = .pushRr p) : p ≠ .sp := by
  rintro rfl
  cases i <;> cases hi

theorem Regs.get16_withSp (g : Regs) {p : Reg16} (w : Word) (h : p ≠ .sp) : Regs.get16 { g with sp := w } p = g.get16 p := by
  cases p <;> first | rfl | contradiction

section
variable {g : State → State} (cpu : LeavesCpu g) {i : Instr} {p : Reg16} {s : State}
include cpu

/-- PUSH as a whole: an internal cycle, the word, the Fetch. -/
theorem cyclesThen_pushRr (hi : i.form = .pushRr p) (h0 : s.ctx.mstep = 0) :
    cyclesThen g i 4 s = .next (g (fetch (pushWord g (s.get16 p) (g s.advance)))) := by
  generalize ht : g s.advance = t
  generalize hu : g (pushByte t (hiByte (s.get16 p))).advance = u
  have hpush : g (pushByte u (loByte (s.get16 p))).advance = pushWord g (s.get16 p) t := by rw [pushWord, hu]
  have pair : t.get16 p = s.get16 p ∧ u.get16 p = s.get16 p := by
    simp [State.get16, ← ht, ← hu, cpu.regs, Regs.get16_withSp _ _ (ne_sp_of_pushRr hi)]
  have h1 : t.ctx.mstep = 1 := by simp [← ht, cpu.ctx, h0]
  have h2 : u.ctx.mstep = 2 := by simp [← hu, cpu.ctx, h1]
  have h3 : (pushWord g (s.get16 p) t).ctx.mstep = 3 := by rw [pushWord_ctx cpu, h1]
  have line (x : State) : exec i x = pushPair p x := exec_of_pushRr hi x
  have exec0 : exec i s = .next s.advance := by rw [line, pushPair, h0]; rfl
  have exec1 : exec i t = .next (pushByte t (hiByte (s.get16 p))).advance := by rw [line, pushPair, h1, pair.1]; rfl
  have exec2 : exec i u = .next (pushByte u (loByte (s.get16 p))).advance := by rw [line, pushPair, h2, pair.2]; rfl
  have exec3 : exec i (pushWord g (s.get16 p) t) = .next (fetch (pushWord g (s.get16 p) t)) := by rw [line, pushPair, h3]; rfl
  calc cyclesThen g i 4 s
      = cyclesThen g i 3 t := by rw [cyclesThen_succ 3 exec0, ht]
    _ = cyclesThen g i 2 u := by rw [cyclesThen_succ 2 exec1, hu]
    _ = cyclesThen g i 1 (pushWord g (s.get16 p) t) := by rw [cyclesThen_succ 1 exec2, hpush]
    _ = .next (g (fetch (pushWord g (s.get16 p) t))) := cyclesThen_succ 0 exec3

/-- POP as a whole: the word, then the pair with the Fetch. -/
theorem cyclesThen_popRr (hi : i.form = .popRr p) (h0 : s.ctx.mstep = 0) (h : LeavesByte g (s.regs.sp + 1)) :
    cyclesThen g i 3 s = .next (g (fetch ((popWord g s).set16 p (popWord g s).ctx.lat16))) := by
  have pops := exec_of_pops (.inl ⟨p, hi⟩)
  have h1 : (g (popLow s).advance).ctx.mstep = 1 := by simp [cpu.ctx, h0]
  have h2 : (popWord g s).ctx.mstep = 2 := by rw [popWord_ctx cpu s h, h0]
  rw [cyclesThen_succ 2 ((pops s).1 h0), cyclesThen_succ 1 ((pops _).2 h1)]
  exact cyclesThen_succ 0 (exec_popRr_two hi h2)

theorem state_after_pushRr {t : State} (hi : i.form = .pushRr p) (h0 : s.ctx.mstep = 0) (ht : cyclesThen g i 4 s = .next t) :
    t.regs = { s.regs with sp := s.regs.sp - 2, pc := s.regs.pc + 1 } ∧ t.ctx.mstep = 0 ∧ t.phase = s.phase := by
  rw [cyclesThen_pushRr cpu hi h0] at ht
  cases ht
  refine ⟨?_, ?_, ?_⟩
  · rw [cpu.regs, fetch_regs, pushWord_regs cpu, cpu.regs, advance_regs]
  · rw [cpu.ctx, fetch_ctx]
  · rw [cpu.phase, fetch_phase, pushWord_phase cpu, cpu.phase, advance_phase]

theorem stack_after_pushRr {t : State} (ready : StackReady g s) (hi : i.form = .pushRr p) (h0 : s.ctx.mstep = 0)
    (ht : cyclesThen g i 4 s = .next t) :
    busRead t (s.regs.sp - 1) = hiByte (s.get16 p) ∧ busRead t (s.regs.sp - 2) = loByte (s.get16 p) := by
  rw [cyclesThen_pushRr cpu hi h0] at ht
  cases ht
  have stacked := busRead_pushWord cpu (ready.cycle (x := s.advance) cpu ⟨rfl, rfl, rfl, rfl, rfl⟩ rfl) (s.get16 p)
  rw [cpu.regs, advance_regs] at stacked
  rw [ready.upper.read, ready.lower.read]
  exact stacked

end

/-- Rule R182, whatever runs between the cycles. -/
theorem regs_after_pushRr_popRr {g : State → State} (cpu : LeavesCpu g) {i j : Instr} {p q : Reg16} {s t u : State}
    (ready : StackReady g s) (hi : i.form = .pushRr p) (hj : j.form = .popRr q) (h0 : s.ctx.mstep = 0)
    (ht : cyclesThen g i 4 s = .next t) (hu : cyclesThen g j 3 t = .next u) :
    u.regs = { s.regs.set16 q (s.regs.get16 p) with pc := s.regs.pc + 1 + 1 } := by
  obtain ⟨hregs, ht0, -⟩ := state_after_pushRr cpu hi h0 ht
  obtain ⟨high, low⟩ := stack_after_pushRr cpu ready hi h0 ht
  have hsp : t.regs.sp = s.regs.sp - 2 := by rw [hregs]
  have hsp1 : t.regs.sp + 1 = s.regs.sp - 1 := by bv_omega
  have upper : LeavesByte g (t.regs.sp + 1) := hsp1 ▸ ready.upper
  rw [cyclesThen_popRr cpu hj ht0 upper] at hu
  cases hu
  rw [cpu.regs, fetch_regs, set16_regs, popWord_regs cpu, popWord_ctx cpu t upper, hsp1, hsp, high, low,
    joinBytes_hiByte_loByte, BitVec.sub_add_cancel, hregs]
  cases q <;> rfl

/-- Settles O39: between CPU cycles nothing runs, and between those of whole ticks the rest of a tick, which leaves RAM alone. -/
theorem pushThenPopMovesThePair : Obligations.PushThenPopMovesThePair := by
  constructor
  · intro i j p q s t u hi hj hinv h0 hupper hlower ht hu
    rw [cycles_eq_cyclesThen] at ht hu
    have idle (a : Word) : LeavesByte id a := ⟨fun _ => rfl, fun _ => id⟩
    exact regs_after_pushRr_popRr ⟨fun _ => rfl, fun _ => rfl, fun _ => rfl⟩
      ⟨idle _, idle _, holdsByte_of_keepsByte hinv hupper, holdsByte_of_keepsByte hinv hlower⟩ hi hj h0 ht hu
  · intro i j p q s t u hi hj hinv hrun h0 hupper hlower hdeci ht hdecj hu
    have ready : StackReady restOfTick s := ⟨leavesByte_restOfTick hupper, leavesByte_restOfTick hlower,
      holdsByte_of_keepsByte hinv (keepsByte_of_inRam hupper), holdsByte_of_keepsByte hinv (keepsByte_of_inRam hlower)⟩
    rw [steps_eq_cyclesThen (by simp [hi]) hrun hdeci h0 (hi ▸ le_refl 4)] at ht
    obtain ⟨-, ht0, hphase⟩ := state_after_pushRr leavesCpu_restOfTick hi h0 ht
    rw [steps_eq_cyclesThen (by simp [hj]) (hphase.trans hrun) hdecj ht0 (hj ▸ le_refl 3)] at hu
    exact regs_after_pushRr_popRr leavesCpu_restOfTick ready hi hj h0 ht hu

end Sys2Proof.Machine
end

section
/-!
PROOFS. CALL, and CALL then RET (47_call_ret.md): the word CALL pushes is the address after its operand, and RET pops it, whatever
runs between the cycles. Then EI and DI (48_ei_di.md).
-/

namespace Sys2Proof.Machine

/-! ## CALL (rules R183, R185) -/

theorem exec_call_eq (s : State) : exec .call s = callDir s := exec_eq_execForm .call s

/-- Settles O37: the lines after the operand's two, a push written out as the store below SP. -/
theorem callCycles : Obligations.CallCycles := by
  intro s
  rw [exec_call_eq]
  refine ⟨fun h2 => ?_, fun h3 => ?_, fun h4 => ?_, fun h5 => ?_⟩
  · simp only [callDir, h2, endCycle, State.advance]
  · simp only [callDir, h3]
    exact endCycle_pushByte h3 _
  · simp only [callDir, h4]
    exact endCycle_pushByte h4 _
  · simp only [callDir, h5]
    rfl

/-! ## CALL then RET (rules R185, R186) -/

/-- The two cycles that read a 16-bit operand, and the internal cycle of CALL after them. -/
def callOperand (g : State → State) (s : State) : State := g (g (readImm16Hi (g (readImm16Lo s).advance)).advance).advance

/-- CALL up to its jump: the operand, then the word pushed is the address after it. -/
def callPushed (g : State → State) (s : State) : State := pushWord g (s.regs.pc + 2) (callOperand g s)

theorem readImm16Lo_regs (s : State) : (readImm16Lo s).regs = { s.regs with pc := s.regs.pc + 1 } := rfl

theorem readImm16Hi_regs (s : State) : (readImm16Hi s).regs = { s.regs with pc := s.regs.pc + 1 } := rfl

section
variable {g : State → State} (cpu : LeavesCpu g) {s : State}
include cpu

theorem callOperand_regs : (callOperand g s).regs = { s.regs with pc := s.regs.pc + 2 } := by
  simp only [callOperand, cpu.regs, advance_regs, readImm16Hi_regs, readImm16Lo_regs, BitVec.add_assoc]
  rfl

theorem callOperand_phase : (callOperand g s).phase = s.phase := by
  simp [callOperand, cpu.phase, readImm16Hi, readImm16Lo]

theorem StackReady.callOperand (ready : StackReady g s) : StackReady g (callOperand g s) := by
  have low := ready.cycle (x := (readImm16Lo s).advance) cpu ⟨rfl, rfl, rfl, rfl, rfl⟩ rfl
  have high := low.cycle (x := (readImm16Hi _).advance) cpu ⟨rfl, rfl, rfl, rfl, rfl⟩ rfl
  exact high.cycle (x := State.advance _) cpu ⟨rfl, rfl, rfl, rfl, rfl⟩ rfl

theorem callPushed_regs : (callPushed g s).regs = { s.regs with sp := s.regs.sp - 2, pc := s.regs.pc + 2 } := by
  rw [callPushed, pushWord_regs cpu, callOperand_regs cpu]

/-- CALL as a whole: the operand, the word, the jump with the Fetch. -/
theorem cyclesThen_call (h0 : s.ctx.mstep = 0) :
    cyclesThen g .call 6 s = .next (g (fetch ((callPushed g s).setPc (callPushed g s).ctx.lat16))) := by
  generalize hlow : g (readImm16Lo s).advance = a
  generalize hhigh : g (readImm16Hi a).advance = b
  generalize hidle : g b.advance = c
  generalize hpush : g (pushByte c (hiByte (s.regs.pc + 2))).advance = d
  have operand : callOperand g s = c := by rw [callOperand, hlow, hhigh, hidle]
  have pushed : g (pushByte d (loByte (s.regs.pc + 2))).advance = callPushed g s := by
    rw [callPushed, operand, pushWord, hpush]
  have hc : c.regs.pc = s.regs.pc + 2 := by rw [← operand, callOperand_regs cpu]
  have hd : d.regs.pc = s.regs.pc + 2 := by rw [← hpush, cpu.regs, advance_regs, pushByte_regs, hc]
  have h1 : a.ctx.mstep = 1 := by simp [← hlow, cpu.ctx, readImm16Lo, h0]
  have h2 : b.ctx.mstep = 2 := by simp [← hhigh, cpu.ctx, readImm16Hi, h1]
  have h3 : c.ctx.mstep = 3 := by simp [← hidle, cpu.ctx, h2]
  have h4 : d.ctx.mstep = 4 := by simp [← hpush, cpu.ctx, h3]
  have h5 : (callPushed g s).ctx.mstep = 5 := by rw [callPushed, pushWord_ctx cpu, operand, h3]
  have exec0 : exec .call s = .next (readImm16Lo s).advance := by rw [exec_call_eq, callDir, h0]; rfl
  have exec1 : exec .call a = .next (readImm16Hi a).advance := by rw [exec_call_eq, callDir, h1]; rfl
  have exec2 : exec .call b = .next b.advance := by rw [exec_call_eq, callDir, h2]; rfl
  have exec3 : exec .call c = .next (pushByte c (hiByte (s.regs.pc + 2))).advance := by rw [exec_call_eq, callDir, h3, hc]; rfl
  have exec4 : exec .call d = .next (pushByte d (loByte (s.regs.pc + 2))).advance := by rw [exec_call_eq, callDir, h4, hd]; rfl
  have exec5 : exec .call (callPushed g s) = .next (fetch ((callPushed g s).setPc (callPushed g s).ctx.lat16)) := by
    rw [exec_call_eq, callDir, h5]; rfl
  calc cyclesThen g .call 6 s
      = cyclesThen g .call 5 a := by rw [cyclesThen_succ 5 exec0, hlow]
    _ = cyclesThen g .call 4 b := by rw [cyclesThen_succ 4 exec1, hhigh]
    _ = cyclesThen g .call 3 c := by rw [cyclesThen_succ 3 exec2, hidle]
    _ = cyclesThen g .call 2 d := by rw [cyclesThen_succ 2 exec3, hpush]
    _ = cyclesThen g .call 1 (callPushed g s) := by rw [cyclesThen_succ 1 exec4, pushed]
    _ = .next (g (fetch ((callPushed g s).setPc (callPushed g s).ctx.lat16))) := cyclesThen_succ 0 exec5

/-- RET as a whole: the word, the jump, the Fetch. -/
theorem cyclesThen_ret (h0 : s.ctx.mstep = 0) (h : LeavesByte g (s.regs.sp + 1)) :
    cyclesThen g .ret 4 s = .next (g (fetch (g ((popWord g s).setPc (popWord g s).ctx.lat16).advance))) := by
  have pops := exec_of_pops (i := .ret) (.inr (.inl rfl))
  have h1 : (g (popLow s).advance).ctx.mstep = 1 := by simp [cpu.ctx, h0]
  have h2 : (popWord g s).ctx.mstep = 2 := by rw [popWord_ctx cpu s h, h0]
  have h3 : (g ((popWord g s).setPc (popWord g s).ctx.lat16).advance).ctx.mstep = 3 := by simp [cpu.ctx, h2]
  have exec3 : exec .ret (g ((popWord g s).setPc (popWord g s).ctx.lat16).advance) =
      .next (fetch (g ((popWord g s).setPc (popWord g s).ctx.lat16).advance)) := by
    simp only [exec_eq_execForm, Instr.form, execForm, returnPop, h3, complete]
  calc cyclesThen g .ret 4 s
      = cyclesThen g .ret 3 (g (popLow s).advance) := cyclesThen_succ 3 ((pops s).1 h0)
    _ = cyclesThen g .ret 2 (popWord g s) := cyclesThen_succ 2 ((pops _).2 h1)
    _ = cyclesThen g .ret 1 (g ((popWord g s).setPc (popWord g s).ctx.lat16).advance) :=
      cyclesThen_succ 1 (exec_return_two (.inl rfl) h2)
    _ = .next (g (fetch (g ((popWord g s).setPc (popWord g s).ctx.lat16).advance))) := cyclesThen_succ 0 exec3

theorem state_after_call {t : State} (h0 : s.ctx.mstep = 0) (ht : cyclesThen g .call 6 s = .next t) :
    t.ctx.mstep = 0 ∧ t.phase = s.phase ∧ ∃ pc, t.regs = { s.regs with sp := s.regs.sp - 2, pc := pc } := by
  rw [cyclesThen_call cpu h0] at ht
  cases ht
  refine ⟨?_, ?_, (callPushed g s).ctx.lat16 + 1, ?_⟩
  · rw [cpu.ctx, fetch_ctx]
  · rw [cpu.phase, fetch_phase, setPc_phase, callPushed, pushWord_phase cpu, callOperand_phase cpu]
  · rw [cpu.regs, fetch_regs, setPc_regs, callPushed_regs cpu]

theorem stack_after_call {t : State} (ready : StackReady g s) (h0 : s.ctx.mstep = 0) (ht : cyclesThen g .call 6 s = .next t) :
    busRead t (s.regs.sp - 1) = hiByte (s.regs.pc + 2) ∧ busRead t (s.regs.sp - 2) = loByte (s.regs.pc + 2) := by
  rw [cyclesThen_call cpu h0] at ht
  cases ht
  have stacked := busRead_pushWord cpu (ready.callOperand cpu) (s.regs.pc + 2)
  rw [callOperand_regs cpu] at stacked
  rw [ready.upper.read, ready.lower.read]
  exact stacked

/-- The return, whatever runs between the cycles: the last Fetch starts at the address after the CALL, the other registers as before
it. -/
theorem fetch_after_call_ret {t u : State} (ready : StackReady g s) (h0 : s.ctx.mstep = 0)
    (ht : cyclesThen g .call 6 s = .next t) (hu : cyclesThen g .ret 4 t = .next u) :
    ∃ x, u = g (fetch x) ∧ x.regs = { s.regs with pc := s.regs.pc + 2 } := by
  obtain ⟨ht0, -, pc, hregs⟩ := state_after_call cpu h0 ht
  obtain ⟨high, low⟩ := stack_after_call cpu ready h0 ht
  have hsp : t.regs.sp = s.regs.sp - 2 := by rw [hregs]
  have hsp1 : t.regs.sp + 1 = s.regs.sp - 1 := by bv_omega
  have upper : LeavesByte g (t.regs.sp + 1) := hsp1 ▸ ready.upper
  rw [cyclesThen_ret cpu ht0 upper] at hu
  cases hu
  refine ⟨_, rfl, ?_⟩
  rw [cpu.regs, advance_regs, setPc_regs, popWord_regs cpu, popWord_ctx cpu t upper, hsp1, hsp, high, low,
    joinBytes_hiByte_loByte, BitVec.sub_add_cancel, hregs]

end

/-- Settles O40: between CPU cycles nothing runs, and between those of whole ticks the rest of a tick, which leaves RAM alone. -/
theorem callThenReturnComesBack : Obligations.CallThenReturnComesBack := by
  constructor
  · intro s t u hinv h0 hupper hlower ht hu
    rw [cycles_eq_cyclesThen] at ht hu
    have idle (a : Word) : LeavesByte id a := ⟨fun _ => rfl, fun _ => id⟩
    obtain ⟨x, rfl, hx⟩ := fetch_after_call_ret ⟨fun _ => rfl, fun _ => rfl, fun _ => rfl⟩
      ⟨idle _, idle _, holdsByte_of_keepsByte hinv hupper, holdsByte_of_keepsByte hinv hlower⟩ h0 ht hu
    refine ⟨by rw [fetch_regs, hx], ?_⟩
    have sameBus : busRead (fetch x) (s.regs.pc + 2) = busRead x (s.regs.pc + 2) :=
      BusSame.busRead ⟨rfl, rfl, rfl, rfl, rfl⟩ _
    rw [sameBus, fetch_ctx, hx]
  · intro s t u hinv hrun h0 hupper hlower hcall ht hret hu
    have ready : StackReady restOfTick s := ⟨leavesByte_restOfTick hupper, leavesByte_restOfTick hlower,
      holdsByte_of_keepsByte hinv (keepsByte_of_inRam hupper), holdsByte_of_keepsByte hinv (keepsByte_of_inRam hlower)⟩
    rw [steps_eq_cyclesThen (by simp [Instr.form]) hrun hcall h0 (le_refl 6)] at ht
    obtain ⟨ht0, hphase, -⟩ := state_after_call leavesCpu_restOfTick h0 ht
    rw [steps_eq_cyclesThen (by simp [Instr.form]) (hphase.trans hrun) hret ht0 (le_refl 4)] at hu
    obtain ⟨x, rfl, hx⟩ := fetch_after_call_ret leavesCpu_restOfTick ready h0 ht hu
    exact ⟨by rw [restOfTick_regs, fetch_regs, hx], x, by rw [hx], rfl⟩

/-! ## EI and DI (rules R190, R191) -/

/-- Settles O38: both listings have one line. -/
theorem enableAndDisableInterrupts : Obligations.EnableAndDisableInterrupts := by
  intro s h0
  constructor
  · simp only [exec_eq_execForm, Instr.form, execForm, setIme, h0]
    rfl
  · simp only [exec_eq_execForm, Instr.form, execForm, setIme, h0]
    rfl

end Sys2Proof.Machine
end

section
/-!
PROOFS. What can fault and what cannot stop (60_exceptions.md rules R200, R203), and the interrupt controller bit by bit (rules R208
to R210).
-/

namespace Sys2Proof.Machine

/-! ## The fault -/

/-- A cycle raises the fault only as PREFIX CB's second one, on a byte with no handler. -/
theorem exec_to_faulted {i : Instr} {s t : State} (h : exec i s = .next t) (hrun : s.phase = .run) (hf : t.phase = .faulted) :
    i = .prefixCb ∧ s.ctx.mstep = 1 ∧ decodeOpcode true s.ctx.lat8 = none := by
  have moved : t.phase ≠ s.phase := by rw [hf, hrun]; decide
  rcases (exec_engine_kept h).2 with ⟨kept, -⟩ | ⟨rfl, -⟩
  · exact absurd kept moved
  rcases exec_prefixCb_cases h with ⟨-, rfl⟩ | ⟨h1, hsecond⟩
  · exact absurd rfl moved
  rcases dispatch_cb_cases rfl hsecond with ⟨j, -, hcb, hexec⟩ | ⟨hdec, -⟩
  · exact absurd (exec_next_cases (form_ne_prefixCb_of_isCb hcb) hexec).kept.2.1 moved
  · exact ⟨rfl, h1, hdec⟩

/-- Only the prefix byte in the first table selects PREFIX CB. -/
theorem decodeOpcode_eq_prefixCb {cb : Bool} {op : Byte} (h : decodeOpcode cb op = some .prefixCb) : cb = false ∧ op = 0xCB := by
  refine ⟨?_, (opcode_of_decodeOpcode h).symm⟩
  cases cb with
  | false => rfl
  | true => cases isCb_of_decodeOpcode_true h

/-- Settles O8: the rest of a tick keeps the phase, so the fault is the CPU step's, by its own decode or by PREFIX CB's. -/
theorem onlyUnimplementedOpcodesFault : Obligations.OnlyUnimplementedOpcodesFault := by
  intro s t hstep hf
  obtain ⟨u, hcpu, rfl⟩ := step_eq_next hstep
  rw [restOfTick_phase] at hf
  rcases cpuStep_cases hcpu with ⟨hp, -⟩ | ⟨-, rfl⟩ | ⟨hrun, hdec, -⟩ | ⟨hrun, i, hdec, hexec⟩
  · exact .inl hp
  · cases hf
  · exact .inr (.inl ⟨hrun, (decodeOpcode_eq_none_iff ..).mp hdec⟩)
  · obtain ⟨rfl, h1, hdec2⟩ := exec_to_faulted hexec hrun hf
    obtain ⟨hcb, hop⟩ := decodeOpcode_eq_prefixCb hdec
    exact .inr (.inr ⟨hrun, hcb, hop, h1, (decodeOpcode_eq_none_iff ..).mp hdec2⟩)

/-- Settles O9: it is the completeness of the listings, PREFIX CB's redispatch included. -/
theorem everyCycleCompletes : Obligations.EveryCycleCompletes := fun _ _ => exec_completes

/-! ## The interrupt controller -/

/-- The mask of a source is its bit alone (rule R208). -/
theorem getLsbD_irqMask {j : Nat} (hj : j < 8) (k : Nat) : (irqMask j).getLsbD k = decide (k = j) := by
  rw [irqMask, ← BitVec.twoPow_eq, BitVec.getLsbD_twoPow, decide_eq_true hj, Bool.true_and, decide_eq_decide, eq_comm]

/-- The sources are the five low bits. -/
theorem getLsbD_sourcesMask (k : Nat) : BitVec.getLsbD (0x1F : Byte) k = decide (k < 5) := by
  by_cases hk : k < 8
  · interval_cases k <;> rfl
  · rw [BitVec.getLsbD_of_ge _ _ (by omega), eq_comm, decide_eq_false_iff_not]
    omega

theorem getLsbD_pending (s : State) (k : Nat) :
    s.pending.getLsbD k = (s.irq.flags.getLsbD k && s.irq.enable.getLsbD k && decide (k < 5)) := by
  rw [State.pending, BitVec.getLsbD_and, BitVec.getLsbD_and, getLsbD_sourcesMask]

theorem getLsbD_flags_raiseIrq (s : State) (m : Byte) (k : Nat) :
    (raiseIrq s m).irq.flags.getLsbD k = (s.irq.flags.getLsbD k || m.getLsbD k) := by
  rw [raiseIrq_irq, BitVec.getLsbD_or]

/-- A vector widened to a byte has no other bit. -/
theorem getLsbD_zeroExtend_vector (v : BitVec 5) (k : Nat) : (v.zeroExtend 8).getLsbD k = v.getLsbD k := by
  rw [BitVec.getLsbD_setWidth, Bool.and_eq_right_iff_imp, decide_eq_true_eq]
  intro hset
  have inVector := BitVec.lt_of_getLsbD hset
  omega

/-- Settles O52: a raise is an OR, and the external input raises the head of its list. -/
theorem pendingAndRaise : Obligations.PendingAndRaise := by
  refine fun s v rest k => ⟨getLsbD_pending s k, fun j hj => ?_, fun hext => ?_, fun hext => ?_⟩
  · rw [getLsbD_flags_raiseIrq, getLsbD_irqMask (by omega)]
  · simp only [sampleExtIrq, hext, getLsbD_flags_raiseIrq, getLsbD_zeroExtend_vector, and_self]
  · simp only [sampleExtIrq, hext]

/-! ## Reset (70_reset_and_hazards.md rule R260) -/

/-- Settles O10: at reset every memory is empty, the phase is Boot, and the first mode is on line 0 with its full budget. -/
theorem invariantHoldsAtReset : Obligations.InvariantHoldsAtReset := by
  have engine : State.reset.EngineInv := ⟨(nomatch ·), fun _ => rfl, (nomatch ·)⟩
  have line : State.reset.ppu.LineInv := by decide
  have count : State.reset.ppu.CountInv := by decide
  have memory : State.reset.MemoryInv := by decide
  have noPixel : State.reset.ppu.ShadeInv := fun _ h => nomatch h
  exact ⟨rfl, engine, line, count, noPixel, memory⟩

/-- Settles O60: each field is the literal of the reset state; STAT is assembled from them on the bus. -/
theorem resetState : Obligations.ResetState := by
  have regs : ∀ r, State.reset.regs.get8 r = 0 := fun r => by cases r <;> rfl
  have stat : busRead State.reset 0xFF41 = 0x82 := (busRead_stat _).trans (by decide)
  exact ⟨regs, rfl, rfl, rfl, rfl, rfl, rfl, rfl, rfl, rfl, rfl, rfl, rfl, rfl, by decide, rfl, rfl, rfl, rfl, rfl, rfl, rfl, stat,
    rfl, rfl, rfl, rfl, rfl, rfl, rfl, rfl, fun _ => rfl, fun _ => rfl, fun _ => rfl, rfl⟩

end Sys2Proof.Machine
end

section
/-!
PROOFS. The PPU (60_exceptions.md rules R224 to R232): the step out of each mode as an equation, the frame as a position that every
step advances, the line a step renders, and what the picture does not depend on.
-/

namespace Sys2Proof.Machine

/-! ## The interrupts of a transition (rule R236) -/

theorem beq_eq_decide_swap (a b : Byte) : (a == b) = decide (b = a) := by
  simp only [beq_eq_decide, eq_comm]

theorem Ppu.statIrq_eq (p : Ppu) (sel : Nat) : p.statIrq sel = if p.statCfg.getLsbD sel then 2 else 0 := rfl

/-- The equality interrupt of a line just entered (rule R229). -/
theorem Ppu.lycIrq_setLy (p : Ppu) (ly : Byte) :
    (p.setLy ly).lycIrq = if p.statCfg.getLsbD 3 && decide (p.lyc = ly) then 2 else 0 := by
  simp only [Ppu.lycIrq, Ppu.setLy, Ppu.statIrq_eq, beq_eq_decide_swap]
  cases p.statCfg.getLsbD 3 <;> cases decide (p.lyc = ly) <;> rfl

/-- The mode's interrupt and the equality interrupt are one bit of IF. -/
theorem Ppu.statIrq_or_lycIrq (p : Ppu) (sel : Nat) (ly : Byte) : p.statIrq sel ||| (p.setLy ly).lycIrq =
    if p.statCfg.getLsbD sel || (p.statCfg.getLsbD 3 && decide (p.lyc = ly)) then 2 else 0 := by
  rw [Ppu.lycIrq_setLy, Ppu.statIrq_eq]
  cases p.statCfg.getLsbD sel <;> cases p.statCfg.getLsbD 3 && decide (p.lyc = ly) <;> rfl

/-- IF's bits when VBlank is entered: bit 0, and bit 1 by the STAT sources (rule R236). -/
theorem bits_of_vblankIrq (stat : Bool) :
    let irq := irqMask 0 ||| if stat then 2 else 0
    irq.getLsbD 0 = true ∧ irq.getLsbD 1 = stat ∧ irq.toNat < 4 := by
  cases stat <;> decide

/-! ## The step of each mode (rules R224 to R229) -/

theorem Ppu.leaveHBlank_last {p : Ppu} (h : p.ly = 143) :
    p.leaveHBlank = ((p.setLy 144).enter .vblank, irqMask 0 ||| (p.statIrq 1 ||| (p.setLy 144).lycIrq)) := by
  have next : p.ly + 1 = 144 := by rw [h]; rfl
  rw [Ppu.leaveHBlank, next, ← BitVec.or_assoc]
  rfl

theorem Ppu.leaveHBlank_next {p : Ppu} (h : p.ly ≠ 143) :
    p.leaveHBlank = ((p.setLy (p.ly + 1)).enter .oamScan, p.statIrq 2 ||| (p.setLy (p.ly + 1)).lycIrq) := by
  have next : (p.setLy (p.ly + 1)).ly ≠ 144#8 := fun e => h (add_right_cancel (b := 1#8) e)
  simp only [Ppu.leaveHBlank, if_neg next]
  rfl

theorem Ppu.leaveVBlankLine_last {p : Ppu} (h : p.ly = 153) : p.leaveVBlankLine =
    ({ (p.setLy 0).enter .oamScan with frameComplete := true }, p.statIrq 2 ||| (p.setLy 0).lycIrq) := if_pos h

theorem Ppu.leaveVBlankLine_next {p : Ppu} (h : p.ly ≠ 153) :
    p.leaveVBlankLine = ((p.setLy (p.ly + 1)).enter .vblank, (p.setLy (p.ly + 1)).lycIrq) := if_neg h

/-- The PPU as the transition at the end of a mode's budget finds it. -/
def Ppu.spent (p : Ppu) : Ppu := { p with cnt := 0, frameComplete := false }

/-- Rendering reads neither the countdown nor the frame output. -/
theorem Ppu.renderScanline_spent (p : Ppu) : renderScanline p.spent = renderScanline p := by
  have pixels (y n : Nat) : p.spent.renderPixels y n = p.renderPixels y n := by
    induction n with
    | zero => rfl
    | succ n ih => rw [Ppu.renderPixels, ih]; rfl
  rw [renderScanline, pixels]
  rfl

theorem Ppu.transition_of_oamScan {p : Ppu} (hm : p.mode = .oamScan) : p.transition = p.leaveOamScan := by
  simp only [Ppu.transition, hm]

theorem Ppu.transition_of_drawing {p : Ppu} (hm : p.mode = .drawing) : p.transition = p.leaveDrawing := by
  simp only [Ppu.transition, hm]

theorem Ppu.transition_of_hblank {p : Ppu} (hm : p.mode = .hblank) : p.transition = p.leaveHBlank := by
  simp only [Ppu.transition, hm]

theorem Ppu.transition_of_vblank {p : Ppu} (hm : p.mode = .vblank) : p.transition = p.leaveVBlankLine := by
  simp only [Ppu.transition, hm]

theorem Ppu.step_of_off {p : Ppu} (h : p.lcdc.getLsbD 7 = false) : p.step = ({ p with frameComplete := false }, 0) := by
  simp only [Ppu.step, Ppu.enabled, h, Bool.false_eq_true, if_false]

section
variable {p : Ppu} (on : p.lcdc.getLsbD 7 = true)
include on

theorem Ppu.step_of_counting (h : 2 ≤ p.cnt) : p.step = ({ p with cnt := p.cnt - 1, frameComplete := false }, 0) := by
  have left : p.cnt - 1 ≠ 0 := by omega
  simp only [Ppu.step, Ppu.enabled, on, if_true, if_neg left]

variable (ended : p.cnt = 1)
include ended

theorem Ppu.step_of_ended : p.step = p.spent.transition := by
  simp only [Ppu.step, Ppu.enabled, on, if_true, ended, Nat.sub_self, Ppu.spent]

theorem Ppu.step_out_of_oamScan (hm : p.mode = .oamScan) :
    p.step = ({ p with mode := .drawing, cnt := 43, frameComplete := false }, 0) := by
  rw [Ppu.step_of_ended on ended, Ppu.transition_of_oamScan (p := p.spent) hm]
  rfl

theorem Ppu.step_out_of_drawing (hm : p.mode = .drawing) :
    p.step = ({ p with mode := .hblank, cnt := 51, fb := renderScanline p, frameComplete := false }, p.statIrq 0) := by
  rw [Ppu.step_of_ended on ended, Ppu.transition_of_drawing (p := p.spent) hm, Ppu.leaveDrawing, Ppu.renderScanline_spent]
  rfl

theorem Ppu.step_into_vblank (hm : p.mode = .hblank) (hly : p.ly = 143) : p.step =
    ({ p with mode := .vblank, cnt := 114, ly := 144, lycEq := decide (p.lyc = 144), frameComplete := false },
      irqMask 0 ||| (p.statIrq 1 ||| (p.setLy 144).lycIrq)) := by
  rw [Ppu.step_of_ended on ended, Ppu.transition_of_hblank (p := p.spent) hm, Ppu.leaveHBlank_last (p := p.spent) hly,
    ← beq_eq_decide_swap]
  rfl

theorem Ppu.step_out_of_hblank (hm : p.mode = .hblank) (hly : p.ly ≠ 143) : p.step =
    ({ p with mode := .oamScan, cnt := 20, ly := p.ly + 1, lycEq := decide (p.lyc = p.ly + 1), frameComplete := false },
      p.statIrq 2 ||| (p.setLy (p.ly + 1)).lycIrq) := by
  rw [Ppu.step_of_ended on ended, Ppu.transition_of_hblank (p := p.spent) hm, Ppu.leaveHBlank_next (p := p.spent) hly,
    ← beq_eq_decide_swap]
  rfl

theorem Ppu.step_out_of_vblank (hm : p.mode = .vblank) (hly : p.ly = 153) : p.step =
    ({ p with mode := .oamScan, cnt := 20, ly := 0, lycEq := decide (p.lyc = 0), frameComplete := true },
      p.statIrq 2 ||| (p.setLy 0).lycIrq) := by
  rw [Ppu.step_of_ended on ended, Ppu.transition_of_vblank (p := p.spent) hm, Ppu.leaveVBlankLine_last (p := p.spent) hly,
    ← beq_eq_decide_swap]
  rfl

theorem Ppu.step_within_vblank (hm : p.mode = .vblank) (hly : p.ly ≠ 153) : p.step =
    ({ p with cnt := 114, ly := p.ly + 1, lycEq := decide (p.lyc = p.ly + 1), frameComplete := false },
      (p.setLy (p.ly + 1)).lycIrq) := by
  rw [Ppu.step_of_ended on ended, Ppu.transition_of_vblank (p := p.spent) hm, Ppu.leaveVBlankLine_next (p := p.spent) hly,
    ← beq_eq_decide_swap, hm]
  rfl

end

/-- Settles O54: one equation for each arm of the step, the interrupts as bits. -/
theorem ppuModeTransitions : Obligations.PpuModeTransitions := by
  refine fun p => ⟨Ppu.step_of_off, fun on => ⟨Ppu.step_of_counting on, fun ended => ⟨Ppu.step_out_of_oamScan on ended,
    fun hm => ⟨_, Ppu.step_out_of_drawing on ended hm⟩, fun hm hly => ?_, fun hm hly => ?_, fun hm hly => ?_,
    fun hm hly => ?_⟩⟩⟩
  · refine ⟨_, Ppu.step_into_vblank on ended hm hly, ?_⟩
    rw [Ppu.statIrq_or_lycIrq]
    exact bits_of_vblankIrq _
  · rw [Ppu.step_out_of_hblank on ended hm hly, Ppu.statIrq_or_lycIrq]
  · rw [Ppu.step_out_of_vblank on ended hm hly, Ppu.statIrq_or_lycIrq]
  · rw [Ppu.step_within_vblank on ended hm hly, Ppu.lycIrq_setLy]

/-! ## The frame (rules R224 to R228, R235, R274) -/

/-- Where a PPU stands in its frame: the line, the mode and the ticks left in it. -/
def Ppu.position (p : Ppu) : Nat × PpuMode × Nat := (p.ly.toNat, p.mode, p.cnt)

/-- The position one step later, with the PPU on. -/
def nextPosition : Nat × PpuMode × Nat → Nat × PpuMode × Nat
  | (line, mode, left) =>
    if 2 ≤ left then (line, mode, left - 1)
    else
      match mode with
      | .oamScan => (line, .drawing, 43)
      | .drawing => (line, .hblank, 51)
      | .hblank => if line = 143 then (144, .vblank, 114) else (line + 1, .oamScan, 20)
      | .vblank => if line = 153 then (0, .oamScan, 20) else (line + 1, .vblank, 114)

/-- Every step takes the PPU to the next position, and completes a frame at the last position of one. -/
theorem Ppu.position_step {p : Ppu} (on : p.lcdc.getLsbD 7 = true) (hcnt : 1 ≤ p.cnt) (hly : p.ly.toNat ≤ 153) :
    p.step.1.position = nextPosition p.position ∧
      (p.step.1.frameComplete = true ↔ p.position = (153, .vblank, 1)) := by
  have next : (p.ly.toNat + 1) % 256 = p.ly.toNat + 1 := Nat.mod_eq_of_lt (by omega)
  by_cases counting : 2 ≤ p.cnt
  · rw [Ppu.step_of_counting on counting]
    have notLast : p.cnt ≠ 1 := by omega
    simp [Ppu.position, nextPosition, counting, notLast]
  · have ended : p.cnt = 1 := by omega
    cases hm : p.mode with
    | oamScan =>
      rw [Ppu.step_out_of_oamScan on ended hm]
      simp [Ppu.position, nextPosition, ended, hm]
    | drawing =>
      rw [Ppu.step_out_of_drawing on ended hm]
      simp [Ppu.position, nextPosition, ended, hm]
    | hblank =>
      by_cases h143 : p.ly.toNat = 143
      · have last : p.ly = 143 := BitVec.eq_of_toNat_eq h143
        rw [Ppu.step_into_vblank on ended hm last]
        simp [Ppu.position, nextPosition, ended, hm, last]
      · rw [Ppu.step_out_of_hblank on ended hm fun e => h143 (congrArg BitVec.toNat e)]
        simp [Ppu.position, nextPosition, ended, hm, h143, next]
    | vblank =>
      by_cases h153 : p.ly.toNat = 153
      · have last : p.ly = 153 := BitVec.eq_of_toNat_eq h153
        rw [Ppu.step_out_of_vblank on ended hm last]
        simp [Ppu.position, nextPosition, ended, hm, last]
      · rw [Ppu.step_within_vblank on ended hm fun e => h153 (congrArg BitVec.toNat e)]
        simp [Ppu.position, nextPosition, ended, hm, h153, next]

/-- The position of tick `k` of a line. -/
def linePosition (line k : Nat) : Nat × PpuMode × Nat :=
  if 144 ≤ line then (line, .vblank, 114 - k)
  else if k < 20 then (line, .oamScan, 20 - k)
  else if k < 63 then (line, .drawing, 63 - k)
  else (line, .hblank, 114 - k)

theorem framePosition_eq (n : Nat) : framePosition n = linePosition (n % 17556 / 114) (n % 114) := rfl

/-- Within a line, the next tick: each mode's range of `k` counts down, and at its end the next range begins. -/
theorem nextPosition_linePosition {line k : Nat} (hk : k < 113) :
    nextPosition (linePosition line k) = linePosition line (k + 1) := by
  unfold linePosition
  split_ifs <;> simp only [nextPosition] <;> grind

/-- At the end of a line, the start of the next one, or of the first one after the last. -/
theorem nextPosition_linePosition_last (line : Nat) :
    nextPosition (linePosition line 113) = linePosition (if line = 153 then 0 else line + 1) 0 := by
  unfold linePosition
  split_ifs <;> simp only [nextPosition] <;> grind

theorem framePosition_succ (n : Nat) : framePosition (n + 1) = nextPosition (framePosition n) := by
  rw [framePosition_eq, framePosition_eq]
  by_cases hk : n % 114 < 113
  · rw [nextPosition_linePosition hk]
    congr 1 <;> omega
  · have last : n % 114 = 113 := by omega
    rw [last, nextPosition_linePosition_last]
    congr 1
    · split <;> omega
    · omega

theorem linePosition_line (line k : Nat) : (linePosition line k).1 = line := by
  unfold linePosition
  split_ifs <;> rfl

theorem linePosition_left_pos (line : Nat) {k : Nat} (hk : k < 114) : 1 ≤ (linePosition line k).2.2 := by
  unfold linePosition
  split_ifs <;> dsimp only <;> omega

/-- The last position of a frame. -/
theorem framePosition_eq_last_iff (n : Nat) : framePosition n = (153, .vblank, 1) ↔ (n + 1) % 17556 = 0 := by
  rw [framePosition_eq, linePosition]
  split_ifs <;> simp only [Prod.mk.injEq, reduceCtorEq, true_and, false_and, and_false, false_iff] <;> omega

section
variable {p : Ppu} (on : p.lcdc.getLsbD 7 = true)
include on

theorem Ppu.run_on (n : Nat) : (Ppu.run n p).lcdc.getLsbD 7 = true := by
  induction n with
  | zero => exact on
  | succ n ih => rw [Ppu.run, (Ppu.step_kept _).lcdc, ih]

/-- At a position of the frame, the countdown and the line are in the range a step needs. -/
theorem Ppu.position_step_of_run {n : Nat} (h : (Ppu.run n p).position = framePosition n) :
    (Ppu.run (n + 1) p).position = nextPosition (Ppu.run n p).position ∧
      ((Ppu.run (n + 1) p).frameComplete = true ↔ (Ppu.run n p).position = (153, .vblank, 1)) := by
  rw [framePosition_eq] at h
  have line : (Ppu.run n p).ly.toNat = n % 17556 / 114 := (congrArg (·.1) h).trans (linePosition_line ..)
  have left : 1 ≤ (Ppu.run n p).position.2.2 := h ▸ linePosition_left_pos _ (by omega)
  exact Ppu.position_step (Ppu.run_on on n) left (by omega)

variable (start : p.position = framePosition 0)
include start

theorem Ppu.position_run (n : Nat) : (Ppu.run n p).position = framePosition n := by
  induction n with
  | zero => exact start
  | succ n ih => rw [framePosition_succ, ← ih]; exact (Ppu.position_step_of_run on ih).1

theorem Ppu.frameComplete_run (n : Nat) : (Ppu.run (n + 1) p).frameComplete = true ↔ (n + 1) % 17556 = 0 := by
  have position := Ppu.position_run on start n
  rw [← framePosition_eq_last_iff, ← position]
  exact (Ppu.position_step_of_run on position).2

end

/-- Settles O56: by induction on the steps the PPU stands at the position of the frame that the number of steps gives. -/
theorem framePeriod : Obligations.FramePeriod := by
  intro p n on hmode hcnt hly
  have start : p.position = framePosition 0 := by rw [Ppu.position, hmode, hcnt, hly]; rfl
  refine ⟨Ppu.position_run on start n, fun hn => ?_⟩
  obtain ⟨k, rfl⟩ : ∃ k, n = k + 1 := Nat.exists_eq_succ_of_ne_zero (by omega)
  exact Ppu.frameComplete_run on start k

/-! ## A rendered line (rules R226, R230, R231) -/

theorem getLsbD_eq_decide (v : Byte) (k : Nat) : v.getLsbD k = decide (v.toNat / 2 ^ k % 2 = 1) :=
  Nat.testBit_eq_decide_div_mod_eq

theorem shadeByte_eq (c : BitVec 2) : shadeByte c = shadeOf c.toNat := rfl

theorem Ppu.tileNumber_eq (p : Ppu) (idx : Byte) : p.tileNumber idx =
    if p.lcdc.toNat / 16 % 2 = 1 then idx.toNat else if idx.toNat < 128 then 256 + idx.toNat else idx.toNat := by
  have signed : (0x100 + idx.toInt).toNat = if idx.toNat < 128 then 256 + idx.toNat else idx.toNat := by
    rw [BitVec.toInt_eq_toNat_cond]
    split_ifs <;> omega
  simp only [Ppu.tileNumber, getLsbD_eq_decide, decide_eq_true_eq, signed]
  rfl

theorem Ppu.mapBase_eq (p : Ppu) : p.mapBase = if p.lcdc.toNat / 8 % 2 = 1 then 0x1C00 else 0x1800 := by
  simp only [Ppu.mapBase, getLsbD_eq_decide, decide_eq_true_eq]
  rfl

theorem toNat_bitplanes (hi lo : Byte) (k : Nat) :
    (BitVec.ofBool (hi.getLsbD k) ++ BitVec.ofBool (lo.getLsbD k)).toNat =
      hi.toNat / 2 ^ k % 2 * 2 + lo.toNat / 2 ^ k % 2 := by
  have bit (v : Byte) : (v.getLsbD k).toNat = v.toNat / 2 ^ k % 2 := Nat.toNat_testBit ..
  rw [toNat_append_eq, BitVec.toNat_ofBool, BitVec.toNat_ofBool, bit, bit, Nat.mul_comm, Nat.pow_one]

theorem Ppu.toNat_shade (p : Ppu) (c : BitVec 2) : (p.shade c).toNat = p.bgp.toNat / 2 ^ (2 * c.toNat) % 4 := by
  rw [Ppu.shade, BitVec.extractLsb'_toNat, Nat.shiftRight_eq_div_pow]

/-- The pixel of the model is the pixel of rule R231's arithmetic. -/
theorem Ppu.pixel_eq (p : Ppu) (y x : Nat) : p.pixel y x = pixelOf p y x := by
  rw [Ppu.pixel, shadeByte_eq, Ppu.toNat_shade, Ppu.colour, toNat_bitplanes, Ppu.tileNumber_eq, Ppu.tileIndex, Ppu.mapBase_eq]
  rfl

/-- Rendering writes the first columns of its line. -/
theorem Ppu.read_renderPixels {p : Ppu} (wf : p.fb.wf) (y n x : Nat) :
    (p.renderPixels y n).read (y * 160 + x) = if x < n then p.pixel y x else p.fb.read (y * 160 + x) := by
  induction n with
  | zero => rfl
  | succ n ih =>
    rw [Ppu.renderPixels]
    by_cases hx : x = n
    · rw [hx, if_pos (Nat.lt_succ_self n)]
      exact Memory.read_write_same _ _ _ (p.wf_renderPixels y n wf)
    · rw [Memory.read_write_ne _ _ (by omega), ih]
      have sameColumns : x < n ↔ x < n + 1 := by omega
      simp only [sameColumns]

/-- It leaves the other bytes of the frame buffer. -/
theorem Ppu.read_renderPixels_off_line (p : Ppu) {y n a : Nat} (h : ∀ x < n, a ≠ y * 160 + x) :
    (p.renderPixels y n).read a = p.fb.read a := by
  induction n with
  | zero => rfl
  | succ n ih =>
    rw [Ppu.renderPixels, Memory.read_write_ne _ _ (h n (Nat.lt_succ_self n)), ih fun x hx => h x (Nat.lt_succ_of_lt hx)]

/-- Settles O57: the step out of Drawing renders line `ly`, or nothing. -/
theorem renderedLine : Obligations.RenderedLine := by
  intro p y x on hm ended _ wf _ hx
  rw [Ppu.step_out_of_drawing on ended hm]
  show (renderScanline p).read (y * 160 + x) = _
  unfold renderScanline
  by_cases bg : p.lcdc.getLsbD 0 = true
  · simp only [bg, if_true, and_true]
    by_cases hy : y = p.ly.toNat
    · rw [if_pos hy, hy, Ppu.read_renderPixels wf, if_pos hx, Ppu.pixel_eq]
    · rw [if_neg hy, Ppu.read_renderPixels_off_line p fun k hk => by omega]
  · rw [if_neg bg, if_neg fun h => bg h.2]

/-! ## What the picture depends on (rule R232) -/

namespace SamePicture

variable {p q : Ppu} (h : SamePicture p q)
include h

theorem enter (m : PpuMode) : SamePicture (p.enter m) (q.enter m) :=
  ⟨rfl, rfl, h.ly, h.enable, h.tileData, h.bgMap, h.bgEnable, h.scx, h.scy, h.bgp, h.vram, h.fb⟩

theorem setLy (ly : Byte) : SamePicture (p.setLy ly) (q.setLy ly) :=
  ⟨h.mode, h.cnt, rfl, h.enable, h.tileData, h.bgMap, h.bgEnable, h.scx, h.scy, h.bgp, h.vram, h.fb⟩

theorem setCnt (n : Nat) (b c : Bool) :
    SamePicture { p with cnt := n, frameComplete := b } { q with cnt := n, frameComplete := c } :=
  ⟨h.mode, rfl, h.ly, h.enable, h.tileData, h.bgMap, h.bgEnable, h.scx, h.scy, h.bgp, h.vram, h.fb⟩

theorem setFb (m : Memory) : SamePicture { p with fb := m } { q with fb := m } :=
  ⟨h.mode, h.cnt, h.ly, h.enable, h.tileData, h.bgMap, h.bgEnable, h.scx, h.scy, h.bgp, h.vram, rfl⟩

theorem pixel_eq (y x : Nat) : q.pixel y x = p.pixel y x := by
  simp only [Ppu.pixel, Ppu.shade, Ppu.colour, Ppu.tileNumber, Ppu.tileIndex, Ppu.mapBase, h.scx, h.scy, h.bgp, h.vram, h.bgMap,
    h.tileData]

theorem renderScanline_eq : renderScanline q = renderScanline p := by
  have pixels (y n : Nat) : q.renderPixels y n = p.renderPixels y n := by
    induction n with
    | zero => exact h.fb
    | succ n ih => simp only [Ppu.renderPixels, ih, h.pixel_eq]
  simp only [renderScanline, pixels, h.bgEnable, h.ly, h.fb]

/-- Each transition goes by the mode and the line, and writes the picture's own parts. -/
theorem transition : SamePicture p.transition.1 q.transition.1 := by
  unfold Ppu.transition
  rw [h.mode]
  cases p.mode with
  | oamScan => exact h.enter .drawing
  | drawing =>
    simp only [Ppu.leaveDrawing, h.renderScanline_eq]
    exact (h.setFb _).enter .hblank
  | hblank =>
    by_cases last : p.ly = 143
    · rw [Ppu.leaveHBlank_last last, Ppu.leaveHBlank_last (h.ly.trans last)]
      exact (h.setLy 144).enter .vblank
    · rw [Ppu.leaveHBlank_next last, Ppu.leaveHBlank_next (h.ly ▸ last), h.ly]
      exact (h.setLy _).enter .oamScan
  | vblank =>
    by_cases last : p.ly = 153
    · rw [Ppu.leaveVBlankLine_last last, Ppu.leaveVBlankLine_last (h.ly.trans last)]
      exact ((h.setLy 0).enter .oamScan).setCnt 20 true true
    · rw [Ppu.leaveVBlankLine_next last, Ppu.leaveVBlankLine_next (h.ly ▸ last), h.ly]
      exact (h.setLy _).enter .vblank

theorem step : SamePicture p.step.1 q.step.1 := by
  have counted := h.setCnt (p.cnt - 1) false false
  simp only [Ppu.step, Ppu.enabled, h.enable, h.cnt]
  split
  · split
    · exact counted.transition
    · exact counted
  · exact h.cnt ▸ h.setCnt p.cnt false false

end SamePicture

/-- Settles O58, by induction on the number of steps. -/
theorem pictureIgnoresOtherRegisters : Obligations.PictureIgnoresOtherRegisters := by
  intro n p q h
  induction n with
  | zero => exact h
  | succ n ih => exact ih.step

end Sys2Proof.Machine
end
